-- ==== Sys2Proof/Word.lean ====
section
/-! DEFINITION. The word types of the device (R7) and the sparse map that holds everything indexed. -/

namespace Sys2Proof

/-- A register or table word: 32 bits (R7). -/
abbrev Word := BitVec 32

/-- One byte of a frame, a record or a memory (R7). -/
abbrev Byte := BitVec 8

/-- A beat number: 48 bits, wrapping (R14). -/
abbrev Beat := BitVec 48

/-- A value of the free-running counter or of a time domain (R325, R326). -/
abbrev Wide := BitVec 64

/-- A sparse map: (key, value) pairs, keys strictly rising, no entry equal to the value that an unlisted key reads as. -/
abbrev SMap (α : Type) := List (Nat × α)

end Sys2Proof
end

