-- ==== Sys2Proof/Syntax.lean ====
section
/-! DEFINITION. The commands of the device: one constructor of Instr per row of the opcode table, with the operands that
the outside delivers. What only the outside can decide (a lane's error, a training's result, bytes read from host
memory) is an operand. -/

namespace Sys2Proof

/-- The two parts of R2. -/
inductive Part where
  | am7240 | am7220
deriving DecidableEq, Repr

/-- Where a frame entered the switch core. -/
inductive FrameSrc where
  | mac                       -- a receiving MAC of P0 to P21
  | host (ring idx : Nat)     -- TX ring and descriptor index (P22)
  | gateway                   -- the legacy gateway (P23)
  | shepherd (token : Nat)    -- Shepherd (P23); the token names the frame to its originator
  | retriever                 -- the Retriever (P23)
deriving DecidableEq, Repr

/-- Where a table command comes from (R124, R126, R365): the word written to TBL_CMD, a command descriptor with its 16
data words, or record n of a batch. -/
inductive CmdSrc where
  | reg (w : Word)
  | ring (r : Fin 2) (idx : BitVec 16) (desc data : List Word)
  | batch (r : Fin 2) (idx : BitVec 16) (rec : List Word)
deriving DecidableEq, Repr

/-- A host BAR0 write as received: offset, byte enables of its first DW, number of DWs, data (R350, R351). -/
structure BusWrite where
  addr : BitVec 26
  be : BitVec 4
  dws : Nat
  data : Word
deriving DecidableEq, Repr

/-- A host BAR0 read as received. -/
structure BusRead where
  addr : BitVec 26
  be : BitVec 4
  dws : Nat
deriving DecidableEq, Repr

/-- What the device read of one slab (R371, R372): its flag byte and its bytes. -/
structure SlabRead where
  slab : Nat
  flag : Byte
  data : List Byte
deriving DecidableEq, Repr

/-- What the planes' checking logic and the scrubbers find in the beat just ended (R233, R238, R247, R401, R500). -/
structure BoundaryReport where
  watchA : Bool := true    -- Twin A's watchdog passed
  watchB : Bool := true
  canaryA : Bool := true   -- Twin A's canary decision gave the stored answer
  canaryB : Bool := true
  ceA : Nat := 0           -- correctable errors found in Twin A's memories
  ceB : Nat := 0
  uceA : Bool := false     -- an uncorrectable error found in Twin A's memories
  uceB : Bool := false
  segBad : Bool := false   -- the standby's logic test of this beat's segment failed
  copy0Bad : Bool := false -- first copy of the scrubbed Kennel slot fails SLOT_CHK
  copy1Bad : Bool := false
  slotLanes : Fin 3 := 0   -- lane mismatches met in the scrubber's slot check, and the core (R388)
  slotCore : Fin 4 := 0
  monBack : Word := 0      -- clock monitors that pass again, as CLK_MON_STATUS
  railBack : Word := 0     -- rails back in their windows, as BUG_RAIL_STATUS
  engCe : List (Fin 16) := [] -- the engine of each correctable error that program or data memories of engines met (R320)
  flags : List (Nat × Byte) := [] -- flags of the exchange window that the host has written since they were last read (R371)
  loadSlabs : Option (List SlabRead) := none -- what a load still to be fetched has read of its slabs (R318)
  xing : Option (Fin 9 × Fin 9) := none -- a crossing whose pulse counter overflowed (R500): source and destination domain
deriving DecidableEq, Repr

/-- What the PHY reports at link-up (R30, R40, R58). -/
structure LinkReport where
  speed : BitVec 3
  leader : Bool
  sqi : BitVec 3
  loc : Bool
  rem : Bool
deriving DecidableEq, Repr

/-- What Clause 98 negotiation resolved, and the counter value at its end, from which the training runs (R37). -/
structure Negotiated where
  speed : BitVec 3
  leader : Bool
  ended : Wide
deriving DecidableEq, Repr

/-- A fast fallback of a port (R37): what the negotiation that follows resolved. -/
structure FastEnd where
  n : Fin 22
  neg : Negotiated
deriving DecidableEq, Repr

/-- The coefficients that a link has trained (R36): the taps and the partner's precoder selection. -/
structure CoefReport where
  taps : List Word
  precoder : Byte
deriving DecidableEq, Repr

/-- A collision on a port (R31): the slots that the back-off draws. -/
structure Backoff where
  n : Fin 22
  wait : BitVec 32
deriving DecidableEq, Repr

/-- Outcome of reading a Kennel slot's copies and of the two lanes of a cipher core (R388, R401). -/
structure CipherReport where
  mismatch : Bool := false  -- the checker lane disagrees
  copyBad : Bool := false   -- the first copy of the slot fails SLOT_CHK
  bothBad : Bool := false   -- both copies fail
  busy : Bool := false      -- no core can take the work in time
deriving DecidableEq, Repr

/-- What two uses of key slots in one piece of work meet (R401): the slots s and s + 1 of XTS work (R394), or the check and the generation of
an authenticated frame that is carried on. -/
structure SlotPair where
  rep : CipherReport := {}
  rep1 : CipherReport := {}
deriving DecidableEq, Repr

/-- An event routine of an engine (R297), and what its uses of key slots meet if it makes any. -/
structure EventRun where
  e : Fin 16
  reps : SlotPair := {}
deriving DecidableEq, Repr

/-- Key work of the Kennel (R388): how many lane mismatches it met, and in which core. -/
structure KeyWork where
  lanes : Fin 3
  core : Fin 4
deriving DecidableEq, Repr

/-- Key work under a wrapping slot (R407): its core, and what reading that slot meets. -/
structure KeyUse where
  core : Fin 4
  aux : CipherReport := {}
deriving DecidableEq, Repr

/-- How a key-store update ends (R406): did the check of the new copy pass, and its key work. -/
structure StoreEnd where
  ok : Bool
  work : KeyWork
deriving DecidableEq, Repr

/-- How a doorbell poll's read ends (R22, R355): with its data, with an error, or with the data of a poll that was abandoned. -/
inductive PollEnd where
  | data | error | late
deriving DecidableEq, Repr

/-- A frame as a MAC receives it (R44, R45): bytes from the destination address through the FCS. -/
structure RxFrame where
  bytes : List Byte
  smdErr : Bool := false   -- began with another SMD (R50)
  cut : Bool := false      -- cut off by a link fall (R42)
  fcsErr : Bool := false   -- FCS check failed
  stamp : Wide             -- counter value of the first bit after the SFD at the MAC/PHY boundary (R51)
  cipher : CipherReport := {}
deriving DecidableEq, Repr

/-- What reading a copy's words, header and list links meets (R188 to R191, R388). -/
inductive TxEcc where
  | ok
  | ce (memory : Fin 3)                         -- correctable: 0 cell, 1 descriptor or link, 2 none counted
  | cell (cell : BitVec 15) (word : Fin 288) (patternFails : Bool) -- an uncorrectable 32-byte word of the copy; the cell's pattern test fails
  | header (cell : BitVec 15)                   -- copy header does not match the descriptor
  | list                                        -- a descriptor or link word lost in both copies
  | cipher (rep : CipherReport)                 -- MACsec transmit work
deriving DecidableEq, Repr

/-- What the reads of a frame's holding-area blocks meet (R169, R188): nothing, a correctable error, an uncorrectable one. -/
inductive HoldEcc where
  | ok | ce | bad
deriving DecidableEq, Repr

/-- Why a plane gives up (R238); `command` = an uncorrectable error in an entry that a table command reads (R128). -/
inductive GiveUpCause where
  | ecc | command | parity | canary
deriving DecidableEq, Repr

/-- A CAN, CAN FD, CAN XL or LIN frame on a bus (R260, R304). -/
structure BusFrame where
  kind : Nat               -- 0 = CAN or CAN FD; 1 = CAN XL; 2 = LIN
  ide : Bool := false
  fdf : Bool := false
  brs : Bool := false
  esi : Bool := false
  rtr : Bool := false
  sec : Bool := false
  id : Nat
  sdt : Nat := 0
  vcid : Nat := 0
  af : Nat := 0
  data : List Byte
deriving DecidableEq, Repr

/-- Errors of a LIN header or response (R279). -/
inductive LinErr where
  | none | checksum | parity | sync | framing | bitErr
deriving DecidableEq, Repr

/-- A LIN channel's turn to send a response (R278, R279): does the readback of what it sends differ. -/
structure LinTurn where
  l : Fin 4
  bitErr : Bool := false
deriving DecidableEq, Repr

/-- A LIN response as received (R278): its data and its checksum. -/
structure LinResp where
  data : List Byte
  sum : Byte
deriving DecidableEq, Repr

/-- The transmit memory of a CAN controller whose frames have grown too old (R273): the entry of the frame that is on the bus, if any. -/
structure OldFrames where
  c : Fin 8
  sending : Option (Fin 32)
deriving DecidableEq, Repr

/-- The kinds of CAN error (R291). -/
inductive CanErr where
  | stuff | form | ack | bit | crc
deriving DecidableEq, Repr

/-- A CAN error (R274): its kind, whether this controller was sending, whether ISO 11898-1 exempts it from the first increment of its
counter (an error that a receiver meets in its own error or overload flag; an acknowledge error of an error-passive sender that sees no
dominant bit; a stuff error in arbitration), and how many further increments of 8 that standard gives (dominant bits after the flag, bit
errors in it). -/
structure CanErrReport where
  kind : CanErr
  sender : Bool
  exempt : Bool
  more : Fin 16
deriving DecidableEq, Repr

/-- What Shepherd's gPTP stack finds (R333, R334): whether this device is the domain's grandmaster; else the port, domainNumber and
grandmaster priority1 of the sync information, the upstream time less domain time in ns, signed, whether the grandmaster changed, and the
rate that the servo computes. `masters`: the ports on which the BMCA makes this device master. -/
structure GptpSync where
  own : Bool
  port : Fin 22
  domainNumber : Byte
  priority1 : Byte
  masters : BitVec 22
  offset : BitVec 64
  gmChange : Bool
  rate : Word
deriving DecidableEq, Repr

/-- An access to a BAR4 window (R373): offset within the window, bytes with their enables (writes) or length (reads). -/
structure WinAccess where
  w : Fin 8
  off : BitVec 20
  bytes : List (Byte × Bool) := []
  len : Nat := 0
deriving DecidableEq, Repr

/-- An Ezsyn request as Shepherd receives it (R374, R375). -/
structure EzReq where
  smac : BitVec 48
  vid : BitVec 12
  write : Bool
  win : BitVec 3
  seq : Word
  addr : BitVec 26
  len : Nat
  payload : List Byte
deriving DecidableEq, Repr

/-- The kinds of Ezsyn response (R374). -/
inductive EzKind where
  | ack | readData | nack
deriving DecidableEq, Repr

/-- An Ezsyn response as the window unit receives it. -/
structure EzResp where
  kind : EzKind
  win : Fin 8
  seq : Word
  addr : BitVec 26
  cause : Byte
  payload : List Byte
deriving DecidableEq, Repr

/-- The units with a thermal shutdown of their own (R530). -/
inductive ThermalUnit where
  | can (c : Fin 8)
  | lin (l : Fin 4)
  | inh (i : Fin 2)
deriving DecidableEq, Repr

/-- What the boot loader, the monitors and the self-tests find at a start (R475, R490, R506). -/
structure StartupReport where
  mainValid : Bool := true    -- the image in MAIN verifies
  priorValid : Bool := true
  stageValid : Bool := false  -- the staged image verifies
  keepOk : Bool := true       -- the keep domain passes its integrity check
  keepEcc : List Nat := []    -- BAR0 addresses of keep-domain words with an uncorrectable error
  aPass : Bool := true        -- Twin A passes its self-test
  bPass : Bool := true
  coreFails : BitVec 4 := 0   -- cipher cores that fail their start-up self-test
  storeA : Bool := true       -- key-store copy A is whole
  storeB : Bool := true
  setA : Bool := true         -- the header CRC of settings copy A matches
  setB : Bool := true
  badRecs : List Nat := []    -- groups whose settings record fails its CRC
deriving DecidableEq, Repr


/-- The commands: one per row of spec/opcode_table.json. -/
inductive Instr where
  | registerWrite (acc : BusWrite)  -- REGISTER_WRITE, R351
  | rcRegisterRead (acc : BusRead)  -- RC_REGISTER_READ, R224
  | timeCntLoRead  -- TIME_CNT_LO_READ, R330
  | counterLowRead (off : BitVec 20)  -- COUNTER_LOW_READ, R511
  | timeCapFifoLoRead (i : Fin 8)  -- TIME_CAP_FIFO_LO_READ, R346
  | timeCapFifoHiRead (i : Fin 8)  -- TIME_CAP_FIFO_HI_READ, R346
  | winFenceRead (w : Fin 8)  -- WIN_FENCE_READ, R378
  | beatBoundary (rep : BoundaryReport)  -- BEAT_BOUNDARY, R20
  | refreshWrite  -- REFRESH_WRITE, R96
  | ctUpdateWrite  -- CT_UPDATE_WRITE, R149
  | streamSweep  -- STREAM_SWEEP, R110
  | noClaim  -- NO_CLAIM, R254
  | fvRenewalDone  -- FV_RENEWAL_DONE, R288
  | linkHoldExpiry (n : Fin 22)  -- LINK_HOLD_EXPIRY, R185
  | hookTimeout (e : Fin 4)  -- HOOK_TIMEOUT, R158
  | picRecordFree (q : Fin 192) (h : Fin 4096)  -- PIC_RECORD_FREE, R216
  | portEnable (n : Fin 22) (w : Word)  -- PORT_ENABLE, R33
  | portDisable (n : Fin 22) (w : Word)  -- PORT_DISABLE, R187
  | softRst (n : Fin 22) (w : Word)  -- SOFT_RST, R33
  | forget (n : Fin 22)  -- FORGET, R39
  | linkUp (n : Fin 22) (rep : LinkReport)  -- LINK_UP, R41
  | linkDown (n : Fin 22)  -- LINK_DOWN, R183
  | fastFallback (x : FastEnd)  -- FAST_FALLBACK, R37
  | coefficientStore (n : Fin 22) (coef : CoefReport)  -- COEFFICIENT_STORE, R38
  | plcaBeaconTimeout (n : Fin 22)  -- PLCA_BEACON_TIMEOUT, R32
  | frameReceive (n : Fin 22) (rx : RxFrame)  -- FRAME_RECEIVE, R45
  | parse (f : Nat) (ecc : HoldEcc)  -- PARSE, R60
  | decision (f : Nat)  -- DECISION, R75
  | copyWrite (k : Nat) (ecc : HoldEcc)  -- COPY_WRITE, R27
  | copyLink (k : Nat)  -- COPY_LINK, R172
  | transmitChoice (p : Fin 24) (ecc : TxEcc)  -- TRANSMIT_CHOICE, R210
  | copySent (p : Fin 24) (ecc : TxEcc)  -- COPY_SENT, R173
  | gateChange (n : Fin 22)  -- GATE_CHANGE, R207
  | creditZero (q : Fin 192)  -- CREDIT_ZERO, R212
  | rxDelivery (k : Nat) (desc : Option (List Word))  -- RX_DELIVERY, R361
  | giveUp (pl : Bool) (why : GiveUpCause)  -- GIVE_UP, R238
  | pipelineWatchdog (pl : Bool)  -- PIPELINE_WATCHDOG, R238
  | swap  -- SWAP, R252
  | selftestDone (pl : Bool) (pass : Bool) (seg : Fin 32)  -- SELFTEST_DONE, R247
  | resyncEnd  -- RESYNC_END, R246
  | desync (crc : Bool)  -- DESYNC, R242
  | safeStateEntry (cause : Fin 8)  -- SAFE_STATE_ENTRY, R255
  | hostForce (w : Word)  -- HOST_FORCE, R257
  | safeLeave (w : Word)  -- SAFE_LEAVE, R257
  | safeLeaveResult (aPass bPass : Bool)  -- SAFE_LEAVE_RESULT, R257
  | ctFlush  -- CT_FLUSH, R152
  | unblock  -- UNBLOCK, R101
  | audit  -- AUDIT, R192
  | tblRead (src : CmdSrc)  -- TBL_READ, R126
  | tblWrite (src : CmdSrc)  -- TBL_WRITE, R126
  | tblInsert (src : CmdSrc)  -- TBL_INSERT, R126
  | tblDelete (src : CmdSrc)  -- TBL_DELETE, R126
  | tblSearch (src : CmdSrc)  -- TBL_SEARCH, R126
  | tblNext (src : CmdSrc)  -- TBL_NEXT, R126
  | flushPort (src : CmdSrc)  -- FLUSH_PORT, R99
  | tblMove (src : CmdSrc)  -- TBL_MOVE, R121
  | seedSet (src : CmdSrc)  -- SEED_SET, R102
  | tblCmdComplete  -- TBL_CMD_COMPLETE, R125
  | canReceive (c : Fin 8) (f : BusFrame)  -- CAN_RECEIVE, R264
  | linHeader (x : LinTurn) (id : BitVec 6) (err : LinErr)  -- LIN_HEADER, R278
  | linResponseReceive (l : Fin 4) (id : BitVec 6) (resp : LinResp) (err : LinErr)  -- LIN_RESPONSE_RECEIVE, R278
  | linScheduleSlot (x : LinTurn)  -- LIN_SCHEDULE_SLOT, R277
  | canTxDone (c : Fin 8)  -- CAN_TX_DONE, R272
  | txExpired (x : OldFrames)  -- TX_EXPIRED, R273
  | busOff (c : Fin 8)  -- BUS_OFF, R274
  | busOffRecoveryStart (c : Fin 8)  -- BUS_OFF_RECOVERY_START, R274
  | recover (c : Fin 8)  -- RECOVER, R274
  | busOffRecovered (c : Fin 8)  -- BUS_OFF_RECOVERED, R274
  | txFlush (c : Fin 8)  -- TX_FLUSH, R292
  | txdTimeout (c : Fin 8) (released : Bool)  -- TXD_TIMEOUT, R276
  | canControllerEnable (c : Fin 8) (w : Word)  -- CAN_CONTROLLER_ENABLE, R262
  | containerTimeout (t : Fin 16)  -- CONTAINER_TIMEOUT, R283
  | tunnelContainerReceive (k : Nat)  -- TUNNEL_CONTAINER_RECEIVE, R284
  | eventRoutine (x : EventRun)  -- EVENT_ROUTINE, R297
  | kelpieRunEnd  -- KELPIE_RUN_END, R295
  | engineFault (e : Fin 16) (cause : Fin 8) (pc : BitVec 12)  -- ENGINE_FAULT, R321
  | restart (e : Fin 16)  -- RESTART, R322
  | loadGo (w : Word) (slabs : List SlabRead)  -- LOAD_GO, R318
  | loadCancel  -- LOAD_CANCEL, R318
  | loadCheckDone  -- LOAD_CHECK_DONE, R318
  | mboxIn (e : Fin 16) (w : Word)  -- MBOX_IN, R298
  | nop (e : Fin 16)  -- NOP, R302
  | add (e : Fin 16) (rd ra rb : Fin 16)  -- ADD, R302
  | sub (e : Fin 16) (rd ra rb : Fin 16)  -- SUB, R302
  | and (e : Fin 16) (rd ra rb : Fin 16)  -- AND, R302
  | or (e : Fin 16) (rd ra rb : Fin 16)  -- OR, R302
  | xor (e : Fin 16) (rd ra rb : Fin 16)  -- XOR, R302
  | shl (e : Fin 16) (rd ra rb : Fin 16)  -- SHL, R302
  | shr (e : Fin 16) (rd ra rb : Fin 16)  -- SHR, R302
  | sar (e : Fin 16) (rd ra rb : Fin 16)  -- SAR, R302
  | slt (e : Fin 16) (rd ra rb : Fin 16)  -- SLT, R302
  | sltu (e : Fin 16) (rd ra rb : Fin 16)  -- SLTU, R302
  | mul (e : Fin 16) (rd ra rb : Fin 16)  -- MUL, R302
  | mulhu (e : Fin 16) (rd ra rb : Fin 16)  -- MULHU, R302
  | addi (e : Fin 16) (rd ra : Fin 16) (imm : BitVec 18)  -- ADDI, R302
  | andi (e : Fin 16) (rd ra : Fin 16) (imm : BitVec 18)  -- ANDI, R302
  | ori (e : Fin 16) (rd ra : Fin 16) (imm : BitVec 18)  -- ORI, R302
  | xori (e : Fin 16) (rd ra : Fin 16) (imm : BitVec 18)  -- XORI, R302
  | shli (e : Fin 16) (rd ra : Fin 16) (imm : BitVec 18)  -- SHLI, R302
  | shri (e : Fin 16) (rd ra : Fin 16) (imm : BitVec 18)  -- SHRI, R302
  | sari (e : Fin 16) (rd ra : Fin 16) (imm : BitVec 18)  -- SARI, R302
  | lui (e : Fin 16) (rd : Fin 16) (imm : BitVec 18)  -- LUI, R302
  | sltiu (e : Fin 16) (rd ra : Fin 16) (imm : BitVec 18)  -- SLTIU, R302
  | ext (e : Fin 16) (rd ra : Fin 16) (imm : BitVec 18)  -- EXT, R302
  | ins (e : Fin 16) (rd ra : Fin 16) (imm : BitVec 18)  -- INS, R302
  | ld (e : Fin 16) (rd ra : Fin 16) (imm : BitVec 18)  -- LD, R302
  | ldh (e : Fin 16) (rd ra : Fin 16) (imm : BitVec 18)  -- LDH, R302
  | ldb (e : Fin 16) (rd ra : Fin 16) (imm : BitVec 18)  -- LDB, R302
  | ldbe (e : Fin 16) (rd ra : Fin 16) (imm : BitVec 18)  -- LDBE, R302
  | st (e : Fin 16) (rd ra : Fin 16) (imm : BitVec 18)  -- ST, R302
  | sth (e : Fin 16) (rd ra : Fin 16) (imm : BitVec 18)  -- STH, R302
  | stb (e : Fin 16) (rd ra : Fin 16) (imm : BitVec 18)  -- STB, R302
  | stbe (e : Fin 16) (rd ra : Fin 16) (imm : BitVec 18)  -- STBE, R302
  | beq (e : Fin 16) (ra rb : Fin 16) (target : BitVec 12)  -- BEQ, R302
  | bne (e : Fin 16) (ra rb : Fin 16) (target : BitVec 12)  -- BNE, R302
  | blt (e : Fin 16) (ra rb : Fin 16) (target : BitVec 12)  -- BLT, R302
  | bge (e : Fin 16) (ra rb : Fin 16) (target : BitVec 12)  -- BGE, R302
  | bltu (e : Fin 16) (ra rb : Fin 16) (target : BitVec 12)  -- BLTU, R302
  | bgeu (e : Fin 16) (ra rb : Fin 16) (target : BitVec 12)  -- BGEU, R302
  | jmp (e : Fin 16) (target : BitVec 12)  -- JMP, R302
  | call (e : Fin 16) (target : BitVec 12)  -- CALL, R302
  | ret (e : Fin 16)  -- RET, R302
  | loop (e : Fin 16) (rc : Fin 16) (max : BitVec 10) (stop : BitVec 12)  -- LOOP, R302
  | halt (e : Fin 16)  -- HALT, R296
  | cyc (e : Fin 16) (rd : Fin 16)  -- CYC, R302
  | fltMatch (e : Fin 16) (rd ra : Fin 16) (n : BitVec 8)  -- FLT_MATCH, R306
  | fltWriteState (e : Fin 16) (rd ra : Fin 16) (n : BitVec 8)  -- FLT_WRITE_STATE, R306
  | fwq (e : Fin 16) (rd ra : Fin 16) (n : BitVec 8)  -- FWQ, R307
  | cmacGenerate (e : Fin 16) (rd ra : Fin 16) (n : BitVec 8) (rep : CipherReport)  -- CMAC_GENERATE, R308
  | cmacVerify (e : Fin 16) (rd ra : Fin 16) (n : BitVec 8) (rep : CipherReport)  -- CMAC_VERIFY, R308
  | putSend (e : Fin 16) (rd ra : Fin 16) (n : BitVec 8)  -- PUT_SEND, R309
  | putHandoff (e : Fin 16) (rd ra : Fin 16) (n : BitVec 8)  -- PUT_HANDOFF, R309
  | get (e : Fin 16) (rd ra : Fin 16) (n : BitVec 8)  -- GET, R302
  | vrd (e : Fin 16) (rd : Fin 16)  -- VRD, R310
  | timeDomain (e : Fin 16) (rd : Fin 16) (d : Fin 4)  -- TIME_DOMAIN, R302
  | timeBeat (e : Fin 16) (rd : Fin 16)  -- TIME_BEAT, R302
  | timeCounter (e : Fin 16) (rd : Fin 16)  -- TIME_COUNTER, R302
  | sysEvent (e : Fin 16) (rd : Fin 16)  -- SYS_EVENT, R311
  | sysRecTrig (e : Fin 16) (rd : Fin 16)  -- SYS_REC_TRIG, R311
  | sysCount (e : Fin 16) (rd : Fin 16)  -- SYS_COUNT, R311
  | sysMboxOut (e : Fin 16) (rd : Fin 16)  -- SYS_MBOX_OUT, R311
  | sysBugle (e : Fin 16) (rd : Fin 16)  -- SYS_BUGLE, R456
  | applyRate (d : Fin 4) (w : Word)  -- APPLY_RATE, R327
  | applyAdj (d : Fin 4) (w : Word)  -- APPLY_ADJ, R327
  | applySet (d : Fin 4) (w : Word)  -- APPLY_SET, R327
  | take  -- TAKE, R331
  | comparatorFire (m : Fin 32)  -- COMPARATOR_FIRE, R341
  | trigEdge (t : Fin 16)  -- TRIG_EDGE, R342
  | capEdge (i : Fin 8) (falling : Bool) (stamp : Wide)  -- CAP_EDGE, R346
  | gptpSync (d : Fin 4) (sync : GptpSync)  -- GPTP_SYNC, R334
  | syncLoss (d : Fin 4)  -- SYNC_LOSS, R334
  | hifKick (w : Word)  -- HIF_KICK, R356
  | doorbellPollData (data : List Byte) (err : PollEnd)  -- DOORBELL_POLL_DATA, R355
  | txDescriptorArrival (r : Fin 32) (descs : List (List Word))  -- TX_DESCRIPTOR_ARRIVAL, R358
  | txDataArrival (r : Fin 32) (data : List Byte)  -- TX_DATA_ARRIVAL, R358
  | dmaErr (r : Fin 70)  -- DMA_ERR, R366
  | ringReset (r : Fin 70)  -- RING_RESET, R367
  | hifXwReclaim (w : Word)  -- HIF_XW_RECLAIM, R372
  | flr  -- FLR, R352
  | perstN  -- PERST_N, R352
  | busMasterEnableClear  -- BUS_MASTER_ENABLE_CLEAR, R352
  | batch (r : Fin 2) (idx : BitVec 16) (desc : List Word) (slabs : List SlabRead)  -- BATCH, R365
  | winWrite (acc : WinAccess)  -- WIN_WRITE, R375
  | winRead (acc : WinAccess)  -- WIN_READ, R377
  | localWindowAccess (wr : Bool) (acc : WinAccess)  -- LOCAL_WINDOW_ACCESS, R373
  | ezsynRequest (rq : EzReq)  -- EZSYN_REQUEST, R375
  | ezsynResponse (rs : EzResp)  -- EZSYN_RESPONSE, R375
  | winTimeout (w : Fin 8)  -- WIN_TIMEOUT, R378
  | winPwePop  -- WIN_PWE_POP, R379
  | keyImport (r : Fin 2) (idx : BitVec 16) (desc : List Word) (data : List Word) (lanes : Fin 3) (work : KeyUse)  -- IMPORT, R407
  | keyImportPlain (r : Fin 2) (idx : BitVec 16) (desc : List Word) (data : List Word) (lanes : Fin 3) (core : Fin 4)  -- IMPORT_PLAIN, R407
  | keyExport (r : Fin 2) (idx : BitVec 16) (desc : List Word) (data : List Word) (lanes : Fin 3) (work : KeyUse)  -- EXPORT, R403
  | keyErase (r : Fin 2) (idx : BitVec 16) (desc : List Word) (data : List Word)  -- ERASE, R407
  | keyLoad (r : Fin 2) (idx : BitVec 16) (desc : List Word) (data : List Word)  -- LOAD, R407
  | keyEvict (r : Fin 2) (idx : BitVec 16) (desc : List Word) (data : List Word)  -- EVICT, R407
  | keyInfo (r : Fin 2) (idx : BitVec 16) (desc : List Word) (data : List Word) (lanes : Fin 3) (core : Fin 4)  -- INFO, R407
  | keyStoreUpdate (x : StoreEnd)  -- KEY_STORE_UPDATE, R406
  | slotLoadDone (k : Fin 64) (work : KeyWork)  -- SLOT_LOAD_DONE, R400
  | coreFailed (c : Fin 4)  -- CORE_FAILED, R389
  | saWrite (acc : BusWrite)  -- SA_WRITE, R393
  | tapRead (t : Fin 2) (k : Nat)  -- TAP_READ, R410
  | sectorFlush (t : Fin 2)  -- SECTOR_FLUSH, R412
  | sectorWrite (t : Fin 2) (flag : Byte) (reps : SlotPair)  -- SECTOR_WRITE, R414
  | recTrigger  -- REC_TRIGGER, R418
  | announcementReceive (k : Nat)  -- ANNOUNCEMENT_RECEIVE, R420
  | recFreeze  -- REC_FREEZE, R419
  | rearm  -- REARM, R419
  | sleepRequest (w : Word)  -- SLEEP_REQUEST, R443
  | forcedSleepRequest (w : Word)  -- FORCED_SLEEP_REQUEST, R457
  | dozeRequest (w : Word)  -- DOZE_REQUEST, R450
  | sleepCancel  -- SLEEP_CANCEL, R446
  | sleepAck  -- SLEEP_ACK, R444
  | dozeWake  -- DOZE_WAKE, R451
  | tc10SleepAck (n : Fin 16)  -- TC10_SLEEP_ACK, R444
  | tc10SleepRequestReceive (n : Fin 16)  -- TC10_SLEEP_REQUEST_RECEIVE, R456
  | prepTimeout  -- PREP_TIMEOUT, R444
  | sleepStop  -- SLEEP_STOP, R445
  | sleepCommit  -- SLEEP_COMMIT, R445
  | dDieDown  -- D_DIE_DOWN, R447
  | wakePin (i : Fin 4) (rising : Bool)  -- WAKE_PIN, R437
  | canWup (c : Fin 8)  -- CAN_WUP, R438
  | canFrame (c : Fin 8) (f : BusFrame)  -- CAN_FRAME, R439
  | canErr (c : Fin 8)  -- CAN_ERR, R439
  | linWake (l : Fin 4)  -- LIN_WAKE, R438
  | tc10Wake (n : Fin 16)  -- TC10_WAKE, R440
  | wakeTimer  -- WAKE_TIMER, R441
  | vbatReturn  -- VBAT_RETURN, R432
  | wakeSequence  -- WAKE_SEQUENCE, R452
  | bugWakeClr  -- BUG_WAKE_CLR, R442
  | brownout  -- BROWNOUT, R432
  | vbatHigh  -- VBAT_HIGH, R433
  | railFail (r : Fin 5)  -- RAIL_FAIL, R434
  | rail (r : Fin 5)  -- RAIL, R434
  | powerLoss  -- POWER_LOSS, R431
  | inhFault (i : Fin 2)  -- INH_FAULT, R436
  | thermalShutdown (u : ThermalUnit)  -- THERMAL_SHUTDOWN, R530
  | updOpen (r : Fin 2) (idx : BitVec 16) (desc : List Word) (data : List Word)  -- UPD_OPEN, R466
  | updWrite (r : Fin 2) (idx : BitVec 16) (desc : List Word) (slabs : List SlabRead)  -- UPD_WRITE, R467
  | updCommit (r : Fin 2) (idx : BitVec 16) (desc : List Word) (data : List Word)  -- UPD_COMMIT, R468
  | updAbort (r : Fin 2) (idx : BitVec 16) (desc : List Word) (data : List Word)  -- UPD_ABORT, R468
  | stagingLockExpiry  -- STAGING_LOCK_EXPIRY, R469
  | activate (r : Fin 2) (idx : BitVec 16) (desc : List Word) (data : List Word)  -- ACTIVATE, R471
  | activateTrial (r : Fin 2) (idx : BitVec 16) (desc : List Word) (data : List Word)  -- ACTIVATE_TRIAL, R474
  | activateCopyDone (ok : Bool)  -- ACTIVATE_COPY_DONE, R471
  | activateShepherdRestart  -- ACTIVATE_SHEPHERD_RESTART, R471
  | incCtr (r : Fin 2) (idx : BitVec 16) (desc : List Word) (data : List Word)  -- INC_CTR, R464
  | cfgCommit (r : Fin 2) (idx : BitVec 16) (desc : List Word) (data : List Word)  -- CFG_COMMIT, R480
  | commitCheckDone  -- COMMIT_CHECK_DONE, R480
  | cfgCancel (r : Fin 2) (idx : BitVec 16) (desc : List Word) (data : List Word)  -- CFG_CANCEL, R481
  | cfgDiscard (r : Fin 2) (idx : BitVec 16) (desc : List Word) (data : List Word)  -- CFG_DISCARD, R481
  | save (r : Fin 2) (idx : BitVec 16) (desc : List Word) (data : List Word)  -- SAVE, R477
  | settingsPut (r : Fin 2) (idx : BitVec 16) (desc : List Word) (slabs : List SlabRead)  -- SETTINGS_PUT, R479
  | settingsGet (r : Fin 2) (idx : BitVec 16) (desc : List Word) (slabs : List SlabRead)  -- SETTINGS_GET, R492
  | requestDownload (tester : BitVec 16) (addr size : BitVec 32)  -- REQUEST_DOWNLOAD, R470
  | transferData (tester : BitVec 16) (block : Byte) (data : List Byte)  -- TRANSFER_DATA, R470
  | requestTransferExit (tester : BitVec 16)  -- REQUEST_TRANSFER_EXIT, R470
  | routineControlActivate (tester : BitVec 16)  -- ROUTINE_CONTROL_ACTIVATE, R470
  | routineControlAbort (tester : BitVec 16)  -- ROUTINE_CONTROL_ABORT, R470
  | ecuReset (tester : BitVec 16)  -- ECU_RESET, R470
  | lldpTlvReceive (n : Fin 22) (mac : BitVec 48) (tlv : List Byte) (ttl : BitVec 16)  -- LLDP_TLV_RECEIVE, R486
  | peerLost (j : Fin 32)  -- PEER_LOST, R486
  | peerTtlExpiry (j : Fin 32)  -- PEER_TTL_EXPIRY, R486
  | lldpduSend  -- LLDPDU_SEND, R485
  | clockStop (w : Word)  -- CLOCK_STOP, R497
  | clockStart (w : Word)  -- CLOCK_START, R497
  | clockMonitorFail (m : Fin 32)  -- CLOCK_MONITOR_FAIL, R502
  | pcieRefLost  -- PCIE_REF_LOST, R496
  | hang (addr : BitVec 26)  -- HANG, R498
  | clkRstCmd (w : Word)  -- CLK_RST_CMD, R505
  | resetN (low : Bool)  -- RESET_N, R504
  | powerOn  -- POWER_ON, R504
  | shepherdReset (lockstep : Bool)  -- SHEPHERD_RESET, R504
  | startup (rep : StartupReport)  -- STARTUP, R506
  | ready  -- READY, R509
  | telSnapTake (w : Word)  -- TEL_SNAP_TAKE, R514
  | telSnapCancel  -- TEL_SNAP_CANCEL, R514
  | glbLock  -- GLB_LOCK, R524
  | canBusError (c : Fin 8) (err : CanErrReport)  -- CAN_BUS_ERROR, R274
  | noResponse (l : Fin 4)  -- NO_RESPONSE, R279
  | collision (x : Backoff)  -- COLLISION, R31
  | plcaBeaconsReturn (n : Fin 22)  -- PLCA_BEACONS_RETURN, R32
  | vbatCrossed (ok : Bool)  -- VBAT_CROSSED, R455
  | thermalRecovery (u : ThermalUnit)  -- THERMAL_RECOVERY, R530
  | pcieRefReturn  -- PCIE_REF_RETURN, R496
  | perstNRelease  -- PERST_N_RELEASE, R504
  | busMasterEnableSet  -- BUS_MASTER_ENABLE_SET, R352
  | shepherdRestartDone  -- SHEPHERD_RESTART_DONE, R504
  | linChannelEnable (l : Fin 4) (w : Word)  -- LIN_CHANNEL_ENABLE, R277
  | debugAccess (wr : Bool) (addr : BitVec 26) (w : Word)  -- DEBUG_ACCESS, R498
deriving DecidableEq, Repr

end Sys2Proof
end

