-- ==== Sys2Proof/Machine/Bits.lean ====
section
/-! DEFINITION. Bit fields, byte orders and beat comparison shared by every block. -/

namespace Sys2Proof.Machine

/-- The value of the n-bit field of `w` that starts at bit `lo`. -/
def fld (w : Word) (lo n : Nat) : Nat := (w.toNat >>> lo) % 2 ^ n

/-- `w` with the n-bit field at bit `lo` set to `v` modulo 2^n. -/
def setFld (w : Word) (lo n v : Nat) : Word :=
  (w &&& ~~~(BitVec.ofNat 32 ((2 ^ n - 1) <<< lo))) ||| BitVec.ofNat 32 ((v % 2 ^ n) <<< lo)

/-- Bit `i` of `w`. -/
def bit (w : Word) (i : Nat) : Bool := w.getLsbD i

/-- `w` with bit `i` set or cleared. -/
def setBit (w : Word) (i : Nat) (b : Bool) : Word := setFld w i 1 (if b then 1 else 0)

/-- Bit `i` of a port mask held as a number (R12). -/
def maskBit (m i : Nat) : Bool := m.testBit i

/-- A mask with bit `i` set. -/
def maskSet (m i : Nat) : Nat := m ||| (1 <<< i)

/-- A mask with bit `i` cleared. -/
def maskClr (m i : Nat) : Nat := if m.testBit i then m - (1 <<< i) else m

/-- The members of a mask of `n` bits, ascending. -/
def maskList (m n : Nat) : List Nat := (List.range n).filter (fun i => m.testBit i)

/-- Number of members of a mask of `n` bits. -/
def maskCount (m n : Nat) : Nat := (maskList m n).length

/-- R15: beat `b` lies ahead of the current beat `c`. -/
def ahead (b c : Beat) : Bool := let d := (b - c).toNat; decide (1 ≤ d ∧ d < 2 ^ 47)

/-- R15: beat `b` is the current beat or has passed. -/
def passed (b c : Beat) : Bool := !ahead b c

/-- Byte `i` of a byte string, zero beyond its end. -/
def byteAt (l : List Byte) (i : Nat) : Byte := l.getD i 0

/-- The `n` bytes from `i`, most significant first (network order, R7). -/
def beNat (l : List Byte) (i : Nat) : Nat → Nat
  | 0 => 0
  | n + 1 => (byteAt l i).toNat * 256 ^ n + beNat l (i + 1) n

/-- The `n` bytes from `i`, least significant first (R7). -/
def leNat (l : List Byte) (i : Nat) : Nat → Nat
  | 0 => 0
  | n + 1 => (byteAt l i).toNat + 256 * leNat l (i + 1) n

/-- `v` as `n` bytes, most significant first. -/
def beBytes (v : Nat) : Nat → List Byte
  | 0 => []
  | n + 1 => BitVec.ofNat 8 (v / 256 ^ n) :: beBytes v n

/-- `v` as `n` bytes, least significant first. -/
def leBytes (v : Nat) : Nat → List Byte
  | 0 => []
  | n + 1 => BitVec.ofNat 8 v :: leBytes (v / 256) n

/-- The little-endian word at byte `i`. -/
def leWord (l : List Byte) (i : Nat) : Word := BitVec.ofNat 32 (leNat l i 4)

/-- `n` little-endian words from byte `i`. -/
def leWords (l : List Byte) (i : Nat) : Nat → List Word
  | 0 => []
  | n + 1 => leWord l i :: leWords l (i + 4) n

/-- Words as little-endian bytes. -/
def wordsBytes (ws : List Word) : List Byte := ws.flatMap (fun w => leBytes w.toNat 4)

/-- Word `i` of an entry, zero beyond its end. -/
def wd (ws : List Word) (i : Nat) : Word := ws.getD i 0

/-- The n-bit field at bit `lo` of word `i` of an entry. -/
def wfld (ws : List Word) (i lo n : Nat) : Nat := fld (wd ws i) lo n

/-- An entry of at least `i + 1` words with word `i` replaced. -/
def wset (ws : List Word) (i : Nat) (v : Word) : List Word :=
  (ws ++ List.replicate (i + 1 - ws.length) 0).set i v

/-- An entry with the n-bit field at bit `lo` of word `i` replaced. -/
def wsetFld (ws : List Word) (i lo n v : Nat) : List Word := wset ws i (setFld (wd ws i) lo n v)

/-- `n` words of an entry from word `i`, as one number (word `i` least significant). -/
def wnum (ws : List Word) (i : Nat) : Nat → Nat
  | 0 => 0
  | n + 1 => (wd ws i).toNat + 2 ^ 32 * wnum ws (i + 1) n

/-- A number as `n` words, least significant first. -/
def numWords (v : Nat) : Nat → List Word
  | 0 => []
  | n + 1 => BitVec.ofNat 32 v :: numWords (v / 2 ^ 32) n

/-- The bytes of `l` from `i`, `n` of them, zero beyond the end. -/
def slice (l : List Byte) (i n : Nat) : List Byte :=
  let t := (l.drop i).take n
  t ++ List.replicate (n - t.length) 0

/-- `l` with `src` written over it from byte `i`; bytes beyond its end are lost. -/
def overlay (l : List Byte) (i : Nat) (src : List Byte) : List Byte :=
  (l.take i ++ src.take (l.length - i)) ++ l.drop (i + src.length)

/-- One bit step of the reflected CRC-32 with polynomial `poly`. -/
def crcBit (poly : Nat) (c : Nat) : Nat := if c % 2 = 1 then (c / 2) ^^^ poly else c / 2

/-- One byte step of a reflected CRC-32. -/
def crcByte (poly : Nat) (c : Nat) (b : Byte) : Nat :=
  let c := c ^^^ b.toNat
  crcBit poly (crcBit poly (crcBit poly (crcBit poly (crcBit poly (crcBit poly (crcBit poly (crcBit poly c)))))))

/-- A reflected CRC-32 over bytes from register value `c`. -/
def crcRun (poly : Nat) (c : Nat) (l : List Byte) : Nat := l.foldl (crcByte poly) c

/-- The CRC-32 "computed as the IEEE 802.3 FCS" (R312, R465). The polynomial is IEEE 802.3's.
PRESUMED (log entry 12): the manual names the FCS and does not spell it out. -/
def crc32 (l : List Byte) : Word := BitVec.ofNat 32 (crcRun 0xEDB88320 0xFFFFFFFF l ^^^ 0xFFFFFFFF)

end Sys2Proof.Machine
end

