-- ==== Sys2Proof/Machine/Aes.lean ====
section
/-! DEFINITION. The cipher and its modes that chapter 13 names by their standards: AES (FIPS 197), GCM (SP 800-38D), CMAC
(SP 800-38B), XTS (IEEE 1619) and key wrap (RFC 3394). The manual names the standards and does not spell them out
(PRESUMED, log entry 75). -/

namespace Sys2Proof.Machine

/-! ### The field of 256 elements and the substitution (FIPS 197) -/

/-- A field element times x. -/
def xtime (a : Nat) : Nat := if a < 128 then 2 * a else (2 * a) ^^^ 0x11B

/-- The product of two field elements, over the `n` low bits of the second. -/
def gmul : Nat → Nat → Nat → Nat
  | 0, _, _ => 0
  | n + 1, a, b => (if b % 2 = 1 then a else 0) ^^^ gmul n (xtime a) (b / 2)

/-- The inverse of a field element, 0 for 0: its power 254, the product of its powers 2, 4, up to 128. -/
def ginv (a : Nat) : Nat :=
  ((List.range 7).foldl (fun (x : Nat × Nat) _ => let q := gmul 8 x.1 x.1; (q, gmul 8 x.2 q)) (a, 1)).2

/-- A byte rotated left by `k` bits. -/
def rotl8 (a k : Nat) : Nat := (a <<< k ||| a >>> (8 - k)) % 256

/-- The substitution of a byte. -/
def subByte (a : Nat) : Nat :=
  let b := ginv a
  b ^^^ rotl8 b 1 ^^^ rotl8 b 2 ^^^ rotl8 b 3 ^^^ rotl8 b 4 ^^^ 0x63

/-- The inverse substitution. -/
def invSubByte (a : Nat) : Nat := ginv (rotl8 a 1 ^^^ rotl8 a 3 ^^^ rotl8 a 6 ^^^ 0x05)

/-- Two byte strings combined by exclusive or, as long as the shorter. -/
def xorBytes (a b : List Nat) : List Nat := List.zipWith (· ^^^ ·) a b

/-! ### The block cipher (FIPS 197) -/

/-- The words of the key schedule. -/
def keySchedule (key : List Nat) : List (List Nat) :=
  let nk := key.length / 4
  let first := (List.range nk).map (fun i => (key.drop (4 * i)).take 4)
  ((List.range (4 * (nk + 7) - nk)).foldl (fun (x : List (List Nat) × Nat) k =>
    let i := nk + k
    let t := x.1.getD (i - 1) []
    let w := fun (t : List Nat) => x.1 ++ [xorBytes (x.1.getD (i - nk) []) t]
    if i % nk = 0 then (w (xorBytes ((t.drop 1 ++ t.take 1).map subByte) [x.2, 0, 0, 0]), xtime x.2)
    else if 6 < nk ∧ i % nk = 4 then (w (t.map subByte), x.2)
    else (w t, x.2)) (first, 1)).1

/-- The round keys, of 16 bytes each. -/
def roundKeys (key : List Nat) : List (List Nat) :=
  let ws := keySchedule key
  (List.range (ws.length / 4)).map (fun r => ((ws.drop (4 * r)).take 4).flatten)

/-- A state with row `r` rotated by `r` columns; `inv` rotates back. -/
def shiftRows (inv : Bool) (b : List Nat) : List Nat :=
  (List.range 16).map (fun i =>
    let r := i % 4
    b.getD (4 * ((i / 4 + if inv then 4 - r else r) % 4) + r) 0)

/-- The columns of a state multiplied by the circulant matrix of a row. -/
def mixColumns (row : List Nat) (b : List Nat) : List Nat :=
  (List.range 16).map (fun i =>
    (List.range 4).foldl (fun a k => a ^^^ gmul 8 (b.getD (4 * (i / 4) + k) 0) (row.getD ((k + 4 - i % 4) % 4) 0)) 0)

/-- The cipher of one block under round keys. -/
def cipherBlock (ks : List (List Nat)) (b : List Nat) : List Nat :=
  match ks with
  | [] => b
  | k0 :: rest =>
    let b := (rest.dropLast).foldl (fun b k => xorBytes (mixColumns [2, 3, 1, 1] (shiftRows false (b.map subByte))) k) (xorBytes b k0)
    xorBytes (shiftRows false (b.map subByte)) (rest.getLastD [])

/-- The inverse cipher of one block under round keys. -/
def invCipherBlock (ks : List (List Nat)) (b : List Nat) : List Nat :=
  match ks.reverse with
  | [] => b
  | k0 :: rest =>
    let b := (rest.dropLast).foldl (fun b k =>
      mixColumns [14, 11, 13, 9] (xorBytes ((shiftRows true b).map invSubByte) k)) (xorBytes b k0)
    xorBytes ((shiftRows true b).map invSubByte) (rest.getLastD [])

/-- Bytes as numbers. -/
def bytesNats (l : List Byte) : List Nat := l.map (·.toNat)

/-- Numbers as bytes. -/
def natsBytes (l : List Nat) : List Byte := l.map (BitVec.ofNat 8)

/-- AES of one block of 16 bytes under a key of 16 or 32 bytes. -/
def aes (key block : List Byte) : List Byte := natsBytes (cipherBlock (roundKeys (bytesNats key)) (bytesNats block))

/-- The inverse cipher of one block. -/
def aesInv (key block : List Byte) : List Byte := natsBytes (invCipherBlock (roundKeys (bytesNats key)) (bytesNats block))

/-- A byte string in blocks of 16, the last one possibly shorter. -/
def blocks16 (l : List Byte) : List (List Byte) := (List.range ((l.length + 15) / 16)).map (fun i => (l.drop (16 * i)).take 16)

/-- A byte string filled with zeros to whole blocks. -/
def pad16 (l : List Byte) : List Byte := l ++ List.replicate ((16 - l.length % 16) % 16) 0

/-- Exclusive or of two byte strings. -/
def xorB (a b : List Byte) : List Byte := List.zipWith (· ^^^ ·) a b

/-! ### GCM (SP 800-38D), as R390 uses it -/

/-- The product in the field of GHASH, over the `n` low bits of the counter; `x` is read from its most significant bit. -/
def ghashMul : Nat → Nat → Nat → Nat → Nat
  | 0, _, _, z => z
  | n + 1, x, v, z =>
    ghashMul n x (if v % 2 = 1 then (v / 2) ^^^ (0xE1 <<< 120) else v / 2) (if x.testBit n then z ^^^ v else z)

/-- GHASH of a whole number of blocks under the hash key `h`. -/
def ghash (h : Nat) (l : List Byte) : Nat := (blocks16 l).foldl (fun y b => ghashMul 128 (y ^^^ beNat b 0 16) h 0) 0

/-- Counter mode under a nonce of 12 bytes, from counter value 2 on. -/
def gctr (ks : List (List Nat)) (nonce data : List Byte) : List Byte :=
  ((blocks16 data).zipIdx.map (fun x => xorB x.1 (natsBytes (cipherBlock ks (bytesNats (nonce ++ beBytes (x.2 + 2) 4)))))).flatten

/-- The ICV over the clear part and the ciphertext. -/
def gcmTag (ks : List (List Nat)) (nonce aad ct : List Byte) : List Byte :=
  let h := beNat (natsBytes (cipherBlock ks (List.replicate 16 0))) 0 16
  let y := ghash h (pad16 aad ++ pad16 ct ++ beBytes (8 * aad.length) 8 ++ beBytes (8 * ct.length) 8)
  xorB (beBytes y 16) (natsBytes (cipherBlock ks (bytesNats (nonce ++ beBytes 1 4))))

/-- GCM: the ciphertext of the data followed by the ICV. -/
def gcm (key nonce aad data : List Byte) : List Byte :=
  let ks := roundKeys (bytesNats key)
  let ct := gctr ks nonce data
  ct ++ gcmTag ks nonce aad ct

/-- The plaintext of GCM ciphertext. -/
def gcmOpen (key nonce ct : List Byte) : List Byte := gctr (roundKeys (bytesNats key)) nonce ct

/-- The ICV that a received frame must carry. -/
def gcmIcv (key nonce aad ct : List Byte) : List Byte := gcmTag (roundKeys (bytesNats key)) nonce aad ct

/-! ### CMAC (SP 800-38B, RFC 4493), as R395 uses it -/

/-- Doubling in the field of CMAC. -/
def cmacDbl (v : Nat) : Nat := (2 * v % 2 ^ 128) ^^^ (if 2 ^ 127 ≤ v then 0x87 else 0)

/-- CMAC-AES of a message: the 16-byte tag. -/
def cmac (key msg : List Byte) : List Byte :=
  let ks := roundKeys (bytesNats key)
  let e := fun (v : Nat) => beNat (natsBytes (cipherBlock ks (bytesNats (beBytes v 16)))) 0 16
  let k1 := cmacDbl (e 0)
  let n := (msg.length + 15) / 16 - 1
  let last := msg.drop (16 * n)
  let lastBlock := if last.length = 16 then beNat last 0 16 ^^^ k1
    else beNat (pad16 (last ++ [0x80])) 0 16 ^^^ cmacDbl k1
  let c := (blocks16 (msg.take (16 * n))).foldl (fun c b => e (c ^^^ beNat b 0 16)) 0
  beBytes (e (c ^^^ lastBlock)) 16

/-! ### XTS (IEEE 1619), as R394 uses it -/

/-- The tweak of the next block. -/
def xtsNext (t : Nat) : Nat := (2 * t % 2 ^ 128) ^^^ (if 2 ^ 127 ≤ t then 0x87 else 0)

/-- XTS of whole blocks under Key1 and Key2 with a data-unit number, taken little-endian. -/
def xts (key1 key2 : List Byte) (unit : Nat) (data : List Byte) : List Byte :=
  let ks := roundKeys (bytesNats key1)
  ((blocks16 data).foldl (fun (x : List (List Byte) × Nat) b =>
    let t := leBytes x.2 16
    (xorB (natsBytes (cipherBlock ks (bytesNats (xorB b t)))) t :: x.1, xtsNext x.2))
    ([], leNat (aes key2 (leBytes unit 16)) 0 16)).1.reverse.flatten

/-! ### Key wrap (RFC 3394), as R396 uses it -/

/-- The default initial value. -/
def wrapIv : List Byte := List.replicate 8 0xA6

/-- Key wrap of whole semiblocks under a key-encryption key. -/
def keyWrap (kek data : List Byte) : List Byte :=
  let ks := roundKeys (bytesNats kek)
  let n := data.length / 8
  let r0 := (List.range n).map (fun i => (data.drop (8 * i)).take 8)
  let x := (List.range (6 * n)).foldl (fun (x : List Byte × List (List Byte)) t =>
    let i := t % n
    let b := natsBytes (cipherBlock ks (bytesNats (x.1 ++ x.2.getD i [])))
    (xorB (b.take 8) (beBytes (t + 1) 8), x.2.set i (b.drop 8))) (wrapIv, r0)
  x.1 ++ x.2.flatten

/-- Key unwrap: none when the integrity check fails. -/
def keyUnwrap (kek data : List Byte) : Option (List Byte) :=
  let ks := roundKeys (bytesNats kek)
  let n := data.length / 8 - 1
  let r0 := (List.range n).map (fun i => (data.drop (8 * i + 8)).take 8)
  let x := (List.range (6 * n)).reverse.foldl (fun (x : List Byte × List (List Byte)) t =>
    let i := t % n
    let b := natsBytes (invCipherBlock ks (bytesNats (xorB x.1 (beBytes (t + 1) 8) ++ x.2.getD i [])))
    (b.take 8, x.2.set i (b.drop 8))) (data.take 8, r0)
  if x.1 = wrapIv then some x.2.flatten else none

/-- R400: SLOT_CHK, the first 32 bits of the encryption of a zero block under a key. -/
def slotChk (key : List Byte) : Word := BitVec.ofNat 32 (beNat (aes key (List.replicate 16 0)) 0 4)

/-- R404: the CMAC key of the seal: the first 128 bits of the root KEK's encryption of a constant block. -/
def sealKey (kek : List Byte) : List Byte := aes kek (beBytes 0x4B4E4C5345414C000000000000000001 16)

end Sys2Proof.Machine
end

