-- ==== Sys2Proof/Machine/Counters.lean ====
section
/-! DEFINITION. The counter families of the TEL block and their offsets (R511, R513). -/

namespace Sys2Proof.Machine

/-- Counters of family ZONE, in counter order (R513). -/
inductive ZoneCtr where
  | DEFAULT | RULE | FRAG | DEEP | CT_NO_SYN | CT_QUEUE_FULL | HOOK | HOOK_BAD | HOOK_FULL | HOOK_TMO | HOOK_FAULT
deriving DecidableEq, Repr

/-- Counters of family FW_MISC, in counter order (R513). -/
inductive FwMiscCtr where
  | CT_UPDATE_SKIP | CT_CREATED | CT_REMOVED | LOG_SUPPRESSED
deriving DecidableEq, Repr

/-- Counters of family DEVICE, in counter order (R513). -/
inductive DeviceCtr where
  | LEARN_Q_FULL | REFRESH_SKIP | LEARN_BLOCKED | TABLE_CE | CELL_CE | DESC_CE | HOLD_CE | PARTIAL_MC_SUPPRESSED | TM_EVT_SUPPRESSED | LAZY_DROP | TUN_RX_FULL | TUN_UNKNOWN | GW_FILTER_GAP | GW_SAFE_FLUSH | DB_POLLS | DB_LATE | DB_SKIPPED | WIN_STRAY
deriving DecidableEq, Repr

/-- Counters of family PORT, in counter order (R513). -/
inductive PortCtr where
  | RX_FRAMES | RX_BYTES | TX_FRAMES | TX_BYTES | FCS_ERR | RUNT | RX_OVERSIZE | MAC_CTRL | SMD_ERR | RX_ABORT | COLLISION_DROP | HOLD_FULL | HOLD_ECC | SHORT | BAD_HDR | BAD_NEXT | DEPTH | SECY_DISCARD | SECY_UNCHECKED | CIPHER_MISMATCH | VLAN_INVALID | VLAN_INGRESS | SA_DROP | DA_DROP | NO_DEST | NO_ROUTE | TTL_EXPIRED | STATIC_MOVE | LEARN_LIMIT | AGED | MC_COPY_DROP | NOT_READY
deriving DecidableEq, Repr

/-- Counters of family CANC, in counter order (R513). -/
inductive CancCtr where
  | RX_OK | TX_OK | RX_OVERRUN | TX_FULL | TX_EXPIRED | TX_BUSOFF | BUSOFF_ENTRIES | STUFF_ERR | FORM_ERR | ACK_ERR | BIT_ERR | CRC_ERR
deriving DecidableEq, Repr

/-- Counters of family GWSRC, in counter order (R513). -/
inductive GwsrcCtr where
  | NO_ROUTE | STAMP_LATE | AUTH_FAIL | AUTH_FRESH | AUTH_UNSYNC | AUTH_LEN | AUTH_KEY | AUTH_FV
deriving DecidableEq, Repr

/-- Counters of family LIN, in counter order (R513). -/
inductive LinCtr where
  | RX_OK | TX_OK | NO_RESPONSE | CHECKSUM | PARITY | SYNC | FRAMING | BIT_ERR
deriving DecidableEq, Repr

/-- Counters of family TUN, in counter order (R513). -/
inductive TunCtr where
  | CONT_TX | MSG_TX | CONT_RX | MSG_RX | XL_TOO_LONG | TUN_TOO_LONG | TUN_MSG_SKIP | TUN_MALFORMED | TUN_SEQ_GAP
deriving DecidableEq, Repr

/-- Counters of family KLP, in counter order (R513). -/
inductive KlpCtr where
  | DEFERRED | FAULT_DROP | FWQ_WIDE | PUT_DENIED | PUT_LEN | HANDOFF_FULL | FILTER_GAP | VRD_LATE | USER0 | USER1 | USER2 | USER3 | BUGLE_IGNORED
deriving DecidableEq, Repr

/-- Counters of family RING, in counter order (R513). -/
inductive RingCtr where
  | FRAMES | BYTES | LOST
deriving DecidableEq, Repr

/-- Counters of family SECY, in counter order (R513). -/
inductive SecyCtr where
  | KEY_NA | TX_PN_EXHAUSTED | CIPHER_BUSY | TX_PROTECTED | RX_VALIDATED | RX_BYPASS
deriving DecidableEq, Repr

/-- Counters of family CHK, in counter order (R513). -/
inductive ChkCtr where
  | CHK_OK | CHECK_FAIL | CHK_NOT_VIDEO
deriving DecidableEq, Repr

/-- Counters of family REC, in counter order (R513). -/
inductive RecCtr where
  | COPIES | GAP_COPIES | SECTORS | REC_FAIL | TRIG_IGNORED
deriving DecidableEq, Repr

/-- Counters of family QMAX, in counter order (R513). -/
inductive QmaxCtr where
  | MAX_DEPTH | MAX_DELAY
deriving DecidableEq, Repr

/-- Counters of family QUEUE, in counter order (R513). -/
inductive QueueCtr where
  | ENQ_COPIES | TX_FRAMES | TX_BYTES | LINK_DOWN | TX_OVERSIZE | PICTURE_DROP | NEVER_FITS | ADMIT_DROP | STALE | PIC_HEAD_DROP | PIC_NO_TRACK | PIC_SLOT_FULL | CHECK_DROP | TX_ABORT | ECC_DROP | LINK_FLUSH | LIST_LOST | SAFE_FLUSH | SLEEP_FLUSH | CIPHER_MISMATCH | PIC_GAP
deriving DecidableEq, Repr

/-- Counters of family METER, in counter order (R513). -/
inductive MeterCtr where
  | GREEN_FRAMES | GREEN_BYTES | YELLOW_FRAMES | YELLOW_BYTES | RED_FRAMES | RED_BYTES | DROPPED
deriving DecidableEq, Repr

/-- Counters of family STREAM, in counter order (R513). -/
inductive StreamCtr where
  | FRAMES | SDU_OVERSIZE | STREAM_BLOCKED | DUPLICATE | OUT_OF_ORDER | ROGUE | LOST | NO_TAG
deriving DecidableEq, Repr

/-- A counter: its family, index and counter name (R513). -/
inductive Ctr where
  | zone (i : Nat) (c : ZoneCtr)
  | fwMisc (c : FwMiscCtr)
  | canDeny (i : Nat)
  | device (c : DeviceCtr)
  | port (i : Nat) (c : PortCtr)
  | canc (i : Nat) (c : CancCtr)
  | gwsrc (i : Nat) (c : GwsrcCtr)
  | lin (i : Nat) (c : LinCtr)
  | tun (i : Nat) (c : TunCtr)
  | klp (i : Nat) (c : KlpCtr)
  | ring (i : Nat) (c : RingCtr)
  | secy (i : Nat) (c : SecyCtr)
  | chk (i : Nat) (c : ChkCtr)
  | tap (i : Nat) (c : RecCtr)
  | cap (i : Nat)
  | ingress (i : Nat)
  | qmax (i : Nat) (c : QmaxCtr)
  | queue (i : Nat) (c : QueueCtr)
  | hist (i k : Nat)
  | meter (i : Nat) (c : MeterCtr)
  | rule (i : Nat)
  | stream (i : Nat) (c : StreamCtr)
deriving DecidableEq, Repr

/-- Counter c of index i lies at TEL offset BASE + 8 × (i × STRIDE + c) (R513). -/
def Ctr.off : Ctr → Nat
  | .zone i c => 0x1000 + 8 * (i * 16 + c.ctorIdx)
  | .fwMisc c => 0x1800 + 8 * c.ctorIdx
  | .canDeny i => 0x1840 + 8 * (i * 1)
  | .device c => 0x1A00 + 8 * c.ctorIdx
  | .port i c => 0x2000 + 8 * (i * 32 + c.ctorIdx)
  | .canc i c => 0x3800 + 8 * (i * 16 + c.ctorIdx)
  | .gwsrc i c => 0x3C00 + 8 * (i * 8 + c.ctorIdx)
  | .lin i c => 0x4400 + 8 * (i * 8 + c.ctorIdx)
  | .tun i c => 0x4500 + 8 * (i * 16 + c.ctorIdx)
  | .klp i c => 0x4D00 + 8 * (i * 16 + c.ctorIdx)
  | .ring i c => 0x5500 + 8 * (i * 4 + c.ctorIdx)
  | .secy i c => 0x5E00 + 8 * (i * 8 + c.ctorIdx)
  | .chk i c => 0x6000 + 8 * (i * 4 + c.ctorIdx)
  | .tap i c => 0x6200 + 8 * (i * 8 + c.ctorIdx)
  | .cap i => 0x6280 + 8 * (i * 1)
  | .ingress i => 0x7000 + 8 * (i * 1)
  | .qmax i c => 0x6400 + 8 * (i * 2 + c.ctorIdx)
  | .queue i c => 0x10000 + 8 * (i * 24 + c.ctorIdx)
  | .hist i k => 0x19000 + 8 * (i * 32 + k)
  | .meter i c => 0x28000 + 8 * (i * 8 + c.ctorIdx)
  | .rule i => 0x38000 + 8 * (i * 1)
  | .stream i c => 0x40000 + 8 * (i * 8 + c.ctorIdx)

end Sys2Proof.Machine
end

