-- ==== Sys2Proof/Config.lean ====
section
/-! DEFINITION. What the manual leaves open: the free values, the device's secrets and the
firmware's own formats. None has a body, so nothing can be proved of a particular value. -/

namespace Sys2Proof.Config

/-- A value that the manual does not state; `n` numbers the occasion (State.free). Log entry 1. -/
opaque freeWord : Nat → Word

/-- The descriptor index that the buffer manager gives the n-th copy (the order of the free list is not fixed, R173). -/
opaque descIndex : Nat → BitVec 15

/-- The first cell of the n-th copy (R173). -/
opaque cellIndex : Nat → BitVec 15

/-- The connection table's seeds, derived from a device-unique OTP value (R144). -/
opaque ctSeed : Nat → Wide

/-- The root KEK, 256 bits in device-unique OTP (R396). -/
opaque rootKek : List Byte

/-- The public key of OTP signing key k: a point of P-384 (R462). -/
opaque signKey : Nat → Nat × Nat

/-- The Llyndex OUI that Shepherd writes at start (R494). -/
opaque oui : BitVec 24

/-- Is OTP signing key k revoked (R462). -/
opaque keyRevoked : Nat → Bool

/-- Byte i of block b of the release image that a module holds in MAIN as shipped (R551). -/
opaque shippedByte : Nat → Nat → Byte

/-- KLP_ENG_IMAGE_CRC of the program for engine e in the body whose hash is given (R293, R319). -/
opaque shippedCrc : List Byte → Nat → Word

/-- WCET of a class of the program for engine e in the body whose hash is given, within bounds that its user sets (R314, R324). -/
opaque shippedWcet : List Byte → Nat → Nat → BitVec 12

/-- The bytes of a settings record's content, of a GROUP and FMT: the layout is the firmware's (R476). -/
opaque settingsEnc : Nat → Nat → List (Nat × List Word) → List Byte

/-- What the bytes of a settings record's content set, by key of register or table entry (R476). -/
opaque settingsDec : Nat → Nat → List Byte → List (Nat × List Word)

/-- A settings record's content of a GROUP migrated from one FMT to another (R478). -/
opaque settingsMig : Nat → Nat → Nat → List (Nat × List Word) → List (Nat × List Word)

end Sys2Proof.Config
end

