-- ==== Sys2Proof/Machine/RegMap.lean ====
section
/-! DEFINITION. The register map: every register of the device with its BAR0 address, access, reset value, writable
bits and whether it is a configuration record, from the register tables of chapters 02 to 19 (R522). -/

namespace Sys2Proof.Machine

/-- The access types of R5. -/
inductive Access where
  | rw | ro | wo | w1c | w1s | rc | rwk | rwl
deriving DecidableEq, Repr

/-- Every register name of the register index (R522). -/
inductive Reg where
  | GLB_DEVICE_ID | GLB_LOCK | GLB_SHEP_STATUS | GLB_GPIO_OE | GLB_GPIO_OUT | GLB_GPIO_IN | CLK_GATE | CLK_EVENT
  | CLK_IRQ_EN | CLK_MON_STATUS | CLK_XING_OVF_SRC | CLK_HANG_STATUS | CLK_START_STATUS | CLK_RST_CMD
  | CLK_DOMAIN_STATUS | CLK_RST_CAUSE | BUG_PWR_STATUS | BUG_SLEEP_CMD | BUG_SLEEP_CFG | BUG_EVENT | BUG_IRQ_EN
  | BUG_ABORT | BUG_VBAT | BUG_RAIL_STATUS | BUG_DOZE_CFG | BUG_DOZE_BUS | BUG_WAKE_CFG | BUG_WAKE_PIN | BUG_TC10_CFG
  | BUG_WAKE_PORTS | BUG_INH_CFG | BUG_SW_CFG | BUG_WAKE_TIMER | BUG_WAKE_LATCH | BUG_WAKE_CLR | BUG_SW_ID
  | BUG_SW_IDMASK | BUG_SW_DATA_LO | BUG_SW_DATA_HI | BUG_SW_DMASK_LO | BUG_SW_DMASK_HI | BUG_SW_CTRL | KEEP_HDR
  | KEEP_BOOT | KEEP_STAGE_TAG | KEEP_CFG_EPOCH_HI | KEEP_SAFE_CAUSE | KEEP_FAULT_HEAD | KEEP_CTR | KEEP_KS_PTR0
  | KEEP_KS_PTR1 | KEEP_RETIRED | KEEP_COEF | KEEP_FAULT | KEEP_HOST | HIF_CTRL | HIF_STATUS | HIF_EVENT | HIF_IRQ_EN
  | HIF_KICK | HIF_BAR0_SEQ | HIF_BAD_READ_ADDR | HIF_DB_BASE_LO | HIF_DB_BASE_HI | HIF_XW_BASE_LO | HIF_XW_BASE_HI
  | HIF_XW_FLAG_LO | HIF_XW_FLAG_HI | HIF_XW_CFG | HIF_XW_RECLAIM | HIF_XW_STATUS | HIF_EVT_ROUTE | HIF_MISC_VEC
  | HIF_VEC_MOD | HIF_VEC_STATUS | HIF_TXR_BASE_LO | HIF_TXR_BASE_HI | HIF_TXR_CFG | HIF_TXR_HEAD | HIF_TXR_TAIL
  | HIF_TXR_CMD | HIF_RXR_BASE_LO | HIF_RXR_BASE_HI | HIF_RXR_CFG | HIF_RXR_HEAD | HIF_RXR_TAIL | HIF_RXR_CMD
  | HIF_CMR_BASE_LO | HIF_CMR_BASE_HI | HIF_CMR_CFG | HIF_CMR_HEAD | HIF_CMR_TAIL | HIF_CMR_CMD | HIF_EVR_BASE_LO
  | HIF_EVR_BASE_HI | HIF_EVR_CFG | HIF_EVR_HEAD | HIF_EVR_TAIL | HIF_EVR_CMD | HIF_EVR_WB_LO | HIF_EVR_WB_HI
  | HIF_RX_MAP | MSIX_ADDR_LO | MSIX_ADDR_HI | MSIX_DATA | MSIX_CTRL | MSIX_PBA | WIN_CTRL | WIN_SRC_MAC_LO
  | WIN_SRC_MAC_HI | WIN_PWE_STATUS | WIN_PWE_POP | WIN_EVENT | WIN_IRQ_EN | WIN_PWE_ENT | WIN_ACCEPT_LO
  | WIN_ACCEPT_HI | WIN_CFG | WIN_BASE | WIN_PEER_MAC_LO | WIN_PEER_MAC_HI | WIN_SEQ | WIN_FENCE | WIN_STATUS
  | PORT_CTRL | PORT_MAC_CFG | PORT_LINK_STATUS | PORT_LINK_EVENT | PORT_LINK_IRQ_EN | PORT_FASTLINK_CFG
  | PORT_FASTLINK_STATUS | PORT_FASTLINK_CTRL | PORT_PLCA_CFG | PORT_PLCA_BURST | PORT_PLCA_STATUS | PORT_TS_CFG
  | PORT_TS_RX_CORR | PORT_TS_TX_CORR | PORT_SECY_CFG | PORT_SECY_BYPASS | PORT_SECY_REPLAY | PAR_CTRL
  | PAR_PORT_START | PAR_PIC_MARK | PAR_NODE_LEN | PAR_NODE_SEL | PAR_NODE_EXT | PAR_TRANS_CTL | PAR_TRANS_VAL
  | LKP_CTRL | LKP_AGE_CFG | LKP_STREAM_SWEEP | LKP_FDB_STATUS | LKP_LEARN_STATUS | LKP_FDB_CTRL | LKP_RTR_MAC_LO
  | LKP_RTR_MAC_HI | LKP_ROUTE_STATUS | LKP_BLOCKED_LO | LKP_BLOCKED_HI | LKP_PORT_CFG | LKP_PORT_LIMIT
  | LKP_PORT_LEARNED | LKP_PCP_MAP | LKP_PORT_GEN | TBL_CMD | TBL_STATUS | TBL_INDEX | TBL_FILTER | TBL_DATA
  | FW_CTRL | FW_STATUS | FW_CT_CTRL | FW_CT_CMD | FW_CT_TMO | FW_CT_GEN | FW_LOG_CFG | FW_DBG | FW_PORT_ZONE
  | FW_SVC_ZONE | FW_BUS_ZONE | FW_LIN_ZONE | FW_ZONE_INTRA | FW_HOOK_CFG | FW_HOOK_STATUS | BUF_CTRL | BUF_CMD
  | BUF_STATUS | BUF_SHARED | BUF_HOLD_STATUS | BUF_ECC_STATUS | BUF_EVT_CFG | BUF_DBG_INDEX | BUF_DBG_DESC
  | BUF_HOLD_RSV | BUF_PORT_HOLD | BUF_PORT_STATE | BUF_Q_CFG | BUF_Q_DEPTH | TM_CTRL | TM_STATUS | TM_EVT_CFG
  | TM_PORT_SCHED | TM_GATE_CFG | TM_GATE_CYCLE | TM_GATE_BASE_LO | TM_GATE_BASE_HI | TM_GATE_STATUS
  | TM_GATE_ENT_STATE | TM_GATE_ENT_IVL | TM_POL_CIR | TM_POL_CBS | TM_POL_PIR | TM_POL_PBS | TM_POL_TC | TM_POL_TP
  | TM_Q_SCHED | TM_Q_IDLE_SLOPE | TM_Q_HI_CREDIT | TM_Q_MAXWIN | TM_Q_CREDIT | TM_Q_MAX_DEPTH | TM_Q_HEAD_AGE
  | TM_Q_MAX_DELAY | GW_CTRL | GW_STATUS | GW_START_CNT | GW_TUN_SMAC_LO | GW_TUN_SMAC_HI | GW_CAN_CTRL | GW_CAN_NBT
  | GW_CAN_DBT | GW_CAN_XBT | GW_CAN_XCVR | GW_CAN_STATUS | GW_CAN_EVENT | GW_CAN_IRQ_EN | GW_CAN_TXAGE | GW_CAN_CMD
  | GW_LIN_CTRL | GW_LIN_BAUD | GW_LIN_STATUS | GW_LIN_EVENT | GW_LIN_SCHED | GW_TUN_CTRL | GW_TUN_LEN
  | GW_TUN_LSID_LO | GW_TUN_LSID_HI | GW_TUN_PSID_LO | GW_TUN_PSID_HI | GW_TUN_DMAC_LO | GW_TUN_DMAC_HI
  | GW_TUN_STATUS | KLP_CTRL | KLP_STATUS | KLP_LOAD_SLAB | KLP_LOAD_BEAT_LO | KLP_LOAD_BEAT_HI | KLP_LOAD_CMD
  | KLP_LOAD_STATUS | KLP_ENG_CTRL | KLP_ENG_CMD | KLP_ENG_STATUS | KLP_ENG_EVENT | KLP_ENG_IRQ_EN | KLP_ENG_BUSY
  | KLP_ENG_MAX_BUSY | KLP_ENG_IMAGE_CRC | KLP_ENG_WCET | KLP_MBOX_IN | KLP_MBOX_OUT | TIME_CTRL | TIME_STATUS
  | TIME_EVENT | TIME_IRQ_EN | TIME_CNT_LO | TIME_CNT_HI | TIME_BEAT_LO | TIME_BEAT_HI | TIME_BEAT_ERR
  | TIME_SNAP_CMD | TIME_SNAP_STATUS | TIME_SNAP_CNT_LO | TIME_SNAP_CNT_HI | TIME_SNAP_BEAT_LO | TIME_SNAP_BEAT_HI
  | TIME_SNAP_BOFF | TIME_SNAP_DOM_LO | TIME_SNAP_DOM_HI | TIME_DOM_CFG | TIME_DOM_RATE | TIME_DOM_ADJ_LO
  | TIME_DOM_ADJ_HI | TIME_DOM_SET_LO | TIME_DOM_SET_HI | TIME_DOM_CMD | TIME_DOM_STATUS | TIME_DOM_RATE_USED
  | TIME_PTP_PORT | TIME_CMP_CFG | TIME_CMP_T_LO | TIME_CMP_T_HI | TIME_CMP_EVENT | TIME_TRIG_CFG
  | TIME_TRIG_START_LO | TIME_TRIG_START_HI | TIME_TRIG_PERIOD | TIME_TRIG_PERIOD_FRAC | TIME_TRIG_WIDTH
  | TIME_TRIG_STATUS | TIME_CAP_CFG | TIME_CAP_FIFO_LO | TIME_CAP_FIFO_HI | TIME_CAP_STATUS | CRY_CTRL | CRY_STATUS
  | CRY_EVENT | CRY_IRQ_EN | CRY_STORE_SEQ | CRY_CORE_STATUS | CRY_SLOT_STATUS | CRY_TXSC_CFG | CRY_TXSC_SCI_LO
  | CRY_TXSC_SCI_HI | CRY_TXSA_CFG | CRY_TXSA_NEXT_PN_LO | CRY_TXSA_NEXT_PN_HI | CRY_TXSA_SSCI | CRY_TXSA_SALT0
  | CRY_TXSA_SALT1 | CRY_TXSA_SALT2 | CRY_TXSA_THRESH_LO | CRY_TXSA_THRESH_HI | CRY_RXSC_CFG | CRY_RXSC_SCI_LO
  | CRY_RXSC_SCI_HI | CRY_RXSA_CFG | CRY_RXSA_NEXT_PN_LO | CRY_RXSA_NEXT_PN_HI | CRY_RXSA_SSCI | CRY_RXSA_SALT0
  | CRY_RXSA_SALT1 | CRY_RXSA_SALT2 | TWIN_CTRL | TWIN_CMD | TWIN_STATUS | TWIN_EVENT | TWIN_IRQ_EN | TWIN_HEALTH_A
  | TWIN_HEALTH_B | TWIN_COPY_STATUS | TWIN_LAST_SW_LO | TWIN_LAST_SW_HI | TWIN_SAFE_STATUS | TWIN_SAFE_CTRL
  | TWIN_SAFE_RESULT | UPD_CTRL | UPD_STATUS | UPD_EVENT | UPD_IRQ_EN | UPD_FW_VERSION | UPD_FW_SVN | UPD_STAGE_OWNER
  | UPD_STAGE_STATUS | UPD_ACT_STATUS | UPD_CFG_CMD | UPD_CFG_BEAT_LO | UPD_CFG_BEAT_HI | UPD_CFG_EPOCH_NEXT
  | UPD_CFG_STATUS | UPD_CFG_REJ | UPD_CFG_REJ_ITEM | UPD_CFG_EPOCH | UPD_FP_LO | UPD_FP_HI | UPD_FP_PREP_LO
  | UPD_FP_PREP_HI | UPD_LLDP_OUI | UPD_FP_PORTS | UPD_PEER_MAC_LO | UPD_PEER_MAC_HI | UPD_PEER_EPOCH
  | UPD_PEER_FP_LO | UPD_PEER_FP_HI | UPD_PEER_AGE | UPD_PEER_EXP_MAC_LO | UPD_PEER_EXP_MAC_HI | UPD_PEER_EXP_EPOCH
  | UPD_PEER_EXP_FP_LO | UPD_PEER_EXP_FP_HI | UPD_RES_OWNER | CHK_CTRL | CHK_EVENT | CHK_IRQ_EN | CHK_CFG
  | CHK_STATUS | CHK_LAST_CALC | CHK_LAST_RECV | REC_CTRL | REC_CMD | REC_STATUS | REC_EVENT | REC_IRQ_EN | REC_SPAN
  | REC_TRIG_TIME_LO | REC_TRIG_TIME_HI | REC_START_CNT | REC_ANN_CFG | REC_ANN_DMAC_LO | REC_ANN_DMAC_HI
  | REC_TAP_CFG | REC_TAP_RING | REC_TAP_SERIAL_LO | REC_TAP_SERIAL_HI | REC_TAP_KEEP_FIRST_LO
  | REC_TAP_KEEP_FIRST_HI | REC_TAP_KEEP_LAST_LO | REC_TAP_KEEP_LAST_HI | REC_TAP_STATUS | REC_TAP_STREAM | TEL_CTRL
  | TEL_SNAP_CMD | TEL_SNAP_AT_LO | TEL_SNAP_AT_HI | TEL_SNAP_STATUS | TEL_SNAP_BEAT_LO | TEL_SNAP_BEAT_HI
deriving DecidableEq, Repr

/-- One row of a register table: address of the first replica, two index dimensions (count, step), access, reset value,
writable bits, and whether writes go to the prepared bank (R480). -/
structure RegRow where
  base : Nat
  n1 : Nat
  s1 : Nat
  n2 : Nat
  s2 : Nat
  acc : Access
  reset : Word
  mask : Word
  cfg : Bool
deriving DecidableEq, Repr

/-- Builds a row. -/
def mkRow (base n1 s1 n2 s2 : Nat) (acc : Access) (reset mask : Word) (cfg : Bool) : RegRow :=
  { base, n1, s1, n2, s2, acc, reset, mask, cfg }

/-- The row of each register (rule named per block). A reset entry of — or K is 0 here: log entries 2 and 3. -/
def Reg.row : Reg → RegRow
  -- R523, 19_register_index.md
  | .GLB_DEVICE_ID => mkRow 0 1 0 1 0 .ro 0xB07240 0 false
  | .GLB_LOCK => mkRow 4 1 0 1 0 .w1s 0 1 false
  | .GLB_SHEP_STATUS => mkRow 8 1 0 1 0 .ro 1 0 false
  | .GLB_GPIO_OE => mkRow 0x10 1 0 1 0 .rw 0 0xFFFF true
  | .GLB_GPIO_OUT => mkRow 0x14 1 0 1 0 .rw 0 0xFFFF false
  | .GLB_GPIO_IN => mkRow 0x18 1 0 1 0 .ro 0 0 false
  -- R510, 17_clocks_reset_startup.md
  | .CLK_GATE => mkRow 0x10000 1 0 1 0 .rw 0x13FC 0x13FC false
  | .CLK_EVENT => mkRow 0x10004 1 0 1 0 .w1c 0 0x3F false
  | .CLK_IRQ_EN => mkRow 0x10008 1 0 1 0 .rw 0 0x3F false
  | .CLK_MON_STATUS => mkRow 0x1000C 1 0 1 0 .ro 0x3F3F07 0 false
  | .CLK_XING_OVF_SRC => mkRow 0x10010 1 0 1 0 .ro 0 0 false
  | .CLK_HANG_STATUS => mkRow 0x10014 1 0 1 0 .ro 0 0 false
  | .CLK_START_STATUS => mkRow 0x10018 1 0 1 0 .ro 1 0 false
  | .CLK_RST_CMD => mkRow 0x10020 1 0 1 0 .wo 0 0x1FFFF false
  | .CLK_DOMAIN_STATUS => mkRow 0x10100 1 0 1 0 .ro 0x2C03 0 false
  | .CLK_RST_CAUSE => mkRow 0x10104 1 0 1 0 .ro 0 0 false
  -- R459, 15_bugle_power_and_wake.md
  | .BUG_PWR_STATUS => mkRow 0x20000 1 0 1 0 .ro 0x1000 0 false
  | .BUG_SLEEP_CMD => mkRow 0x20004 1 0 1 0 .wo 0 0x1F3 false
  | .BUG_SLEEP_CFG => mkRow 0x20008 1 0 1 0 .rw 0x143E82 0xFFFFF3 true
  | .BUG_EVENT => mkRow 0x2000C 1 0 1 0 .w1c 0 0x1FF false
  | .BUG_IRQ_EN => mkRow 0x20010 1 0 1 0 .rw 0 0x1FF false
  | .BUG_ABORT => mkRow 0x20014 1 0 1 0 .ro 0 0 false
  | .BUG_VBAT => mkRow 0x20018 1 0 1 0 .ro 0 0 false
  | .BUG_RAIL_STATUS => mkRow 0x2001C 1 0 1 0 .ro 0x1F 0 false
  | .BUG_DOZE_CFG => mkRow 0x20020 1 0 1 0 .rw 0 0x1FFFFFF true
  | .BUG_DOZE_BUS => mkRow 0x20024 1 0 1 0 .rw 0 0xFFF true
  | .BUG_WAKE_CFG => mkRow 0x20100 1 0 1 0 .rwk 0 0x1FFFFFF false
  | .BUG_WAKE_PIN => mkRow 0x20104 1 0 1 0 .rwk 0 0xFFFFFFFF false
  | .BUG_TC10_CFG => mkRow 0x20108 1 0 1 0 .rwk 0 0xFFFFFFFF false
  | .BUG_WAKE_PORTS => mkRow 0x2010C 1 0 1 0 .rwk 0 0xFFF false
  | .BUG_INH_CFG => mkRow 0x20110 1 0 1 0 .rwk 0 0x1F1F false
  | .BUG_SW_CFG => mkRow 0x20114 1 0 1 0 .rwk 0 0xFF07 false
  | .BUG_WAKE_TIMER => mkRow 0x20118 1 0 1 0 .rwk 0 0xFFFFFF false
  | .BUG_WAKE_LATCH => mkRow 0x2011C 1 0 1 0 .ro 0 0 false
  | .BUG_WAKE_CLR => mkRow 0x20120 1 0 1 0 .wo 0 1 false
  | .BUG_SW_ID => mkRow 0x20180 8 0x20 1 0 .rwk 0 0x3FFFFFFF false
  | .BUG_SW_IDMASK => mkRow 0x20184 8 0x20 1 0 .rwk 0 0x3FFFFFFF false
  | .BUG_SW_DATA_LO => mkRow 0x20188 8 0x20 1 0 .rwk 0 0xFFFFFFFF false
  | .BUG_SW_DATA_HI => mkRow 0x2018C 8 0x20 1 0 .rwk 0 0xFFFFFFFF false
  | .BUG_SW_DMASK_LO => mkRow 0x20190 8 0x20 1 0 .rwk 0 0xFFFFFFFF false
  | .BUG_SW_DMASK_HI => mkRow 0x20194 8 0x20 1 0 .rwk 0 0xFFFFFFFF false
  | .BUG_SW_CTRL => mkRow 0x20198 8 0x20 1 0 .rwk 0 0xF1F false
  -- R489, 16_update_and_configuration.md
  | .KEEP_HDR => mkRow 0x21180 1 0 1 0 .ro 0 0 false
  | .KEEP_BOOT => mkRow 0x21184 1 0 1 0 .ro 0 0 false
  | .KEEP_STAGE_TAG => mkRow 0x21188 1 0 1 0 .ro 0 0 false
  | .KEEP_CFG_EPOCH_HI => mkRow 0x2118C 1 0 1 0 .ro 0 0 false
  | .KEEP_SAFE_CAUSE => mkRow 0x21190 1 0 1 0 .ro 0 0 false
  | .KEEP_FAULT_HEAD => mkRow 0x21194 1 0 1 0 .ro 0 0 false
  | .KEEP_CTR => mkRow 0x211A0 32 4 1 0 .ro 0 0 false
  | .KEEP_KS_PTR0 => mkRow 0x21220 3 4 1 0 .ro 0 0 false
  | .KEEP_KS_PTR1 => mkRow 0x21230 3 4 1 0 .ro 0 0 false
  | .KEEP_RETIRED => mkRow 0x21240 32 4 1 0 .ro 0 0 false
  | .KEEP_COEF => mkRow 0x21300 12 0x60 24 4 .ro 0 0 false
  | .KEEP_FAULT => mkRow 0x21780 32 0x10 4 4 .ro 0 0 false
  | .KEEP_HOST => mkRow 0x21980 416 4 1 0 .rwk 0 0xFFFFFFFF false
  -- R382, 12_host_interface.md
  | .HIF_CTRL => mkRow 0x30000 1 0 1 0 .rw 1 1 false
  | .HIF_STATUS => mkRow 0x30004 1 0 1 0 .ro 0 0 false
  | .HIF_EVENT => mkRow 0x30008 1 0 1 0 .w1c 0 0x7F false
  | .HIF_IRQ_EN => mkRow 0x3000C 1 0 1 0 .rw 0 0x7F false
  | .HIF_KICK => mkRow 0x30010 1 0 1 0 .wo 0 0x807FFFFF false
  | .HIF_BAR0_SEQ => mkRow 0x30014 1 0 1 0 .ro 0 0 false
  | .HIF_BAD_READ_ADDR => mkRow 0x30018 1 0 1 0 .ro 0 0 false
  | .HIF_DB_BASE_LO => mkRow 0x30020 1 0 1 0 .rw 0 0xFFFFFF00 false
  | .HIF_DB_BASE_HI => mkRow 0x30024 1 0 1 0 .rw 0 0xFFFFFFFF false
  | .HIF_XW_BASE_LO => mkRow 0x30030 1 0 1 0 .rw 0 0xFFFFF000 false
  | .HIF_XW_BASE_HI => mkRow 0x30034 1 0 1 0 .rw 0 0xFFFFFFFF false
  | .HIF_XW_FLAG_LO => mkRow 0x30038 1 0 1 0 .rw 0 0xFFFFFFC0 false
  | .HIF_XW_FLAG_HI => mkRow 0x3003C 1 0 1 0 .rw 0 0xFFFFFFFF false
  | .HIF_XW_CFG => mkRow 0x30040 1 0 1 0 .rw 0 0x1FFFF false
  | .HIF_XW_RECLAIM => mkRow 0x30044 1 0 1 0 .wo 0 0xFFFFFFFF false
  | .HIF_XW_STATUS => mkRow 0x30048 1 0 1 0 .ro 0 0 false
  | .HIF_EVT_ROUTE => mkRow 0x30050 1 0 1 0 .rw 0 0xFFFFFFFF false
  | .HIF_MISC_VEC => mkRow 0x30054 1 0 1 0 .rw 0x3F 0x3F false
  | .HIF_VEC_MOD => mkRow 0x30100 64 8 1 0 .rw 1 0xFFFFFF false
  | .HIF_VEC_STATUS => mkRow 0x30104 64 8 1 0 .ro 0 0 false
  | .HIF_TXR_BASE_LO => mkRow 0x31000 32 0x20 1 0 .rw 0 0xFFFFF000 false
  | .HIF_TXR_BASE_HI => mkRow 0x31004 32 0x20 1 0 .rw 0 0xFFFFFFFF false
  | .HIF_TXR_CFG => mkRow 0x31008 32 0x20 1 0 .rw 6 0x3FFF false
  | .HIF_TXR_HEAD => mkRow 0x3100C 32 0x20 1 0 .ro 0 0 false
  | .HIF_TXR_TAIL => mkRow 0x31010 32 0x20 1 0 .ro 0 0 false
  | .HIF_TXR_CMD => mkRow 0x31014 32 0x20 1 0 .wo 0 1 false
  | .HIF_RXR_BASE_LO => mkRow 0x31400 32 0x20 1 0 .rw 0 0xFFFFF000 false
  | .HIF_RXR_BASE_HI => mkRow 0x31404 32 0x20 1 0 .rw 0 0xFFFFFFFF false
  | .HIF_RXR_CFG => mkRow 0x31408 32 0x20 1 0 .rw 0x4006 0x47FF false
  | .HIF_RXR_HEAD => mkRow 0x3140C 32 0x20 1 0 .ro 0 0 false
  | .HIF_RXR_TAIL => mkRow 0x31410 32 0x20 1 0 .ro 0 0 false
  | .HIF_RXR_CMD => mkRow 0x31414 32 0x20 1 0 .wo 0 1 false
  | .HIF_CMR_BASE_LO => mkRow 0x31800 2 0x20 1 0 .rw 0 0xFFFFF000 false
  | .HIF_CMR_BASE_HI => mkRow 0x31804 2 0x20 1 0 .rw 0 0xFFFFFFFF false
  | .HIF_CMR_CFG => mkRow 0x31808 2 0x20 1 0 .rw 6 0x7FF false
  | .HIF_CMR_HEAD => mkRow 0x3180C 2 0x20 1 0 .ro 0 0 false
  | .HIF_CMR_TAIL => mkRow 0x31810 2 0x20 1 0 .ro 0 0 false
  | .HIF_CMR_CMD => mkRow 0x31814 2 0x20 1 0 .wo 0 1 false
  | .HIF_EVR_BASE_LO => mkRow 0x31900 4 0x20 1 0 .rw 0 0xFFFFF000 false
  | .HIF_EVR_BASE_HI => mkRow 0x31904 4 0x20 1 0 .rw 0 0xFFFFFFFF false
  | .HIF_EVR_CFG => mkRow 0x31908 4 0x20 1 0 .rw 6 0x7FF false
  | .HIF_EVR_HEAD => mkRow 0x3190C 4 0x20 1 0 .ro 0 0 false
  | .HIF_EVR_TAIL => mkRow 0x31910 4 0x20 1 0 .ro 0 0 false
  | .HIF_EVR_CMD => mkRow 0x31914 4 0x20 1 0 .wo 0 1 false
  | .HIF_EVR_WB_LO => mkRow 0x31918 4 0x20 1 0 .rw 0 0xFFFFFFFC false
  | .HIF_EVR_WB_HI => mkRow 0x3191C 4 0x20 1 0 .rw 0 0xFFFFFFFF false
  | .HIF_RX_MAP => mkRow 0x31C00 8 4 1 0 .rw 0 0x7F false
  | .MSIX_ADDR_LO => mkRow 0x32000 64 0x10 1 0 .rw 0 0xFFFFFFFC false
  | .MSIX_ADDR_HI => mkRow 0x32004 64 0x10 1 0 .rw 0 0xFFFFFFFF false
  | .MSIX_DATA => mkRow 0x32008 64 0x10 1 0 .rw 0 0xFFFFFFFF false
  | .MSIX_CTRL => mkRow 0x3200C 64 0x10 1 0 .rw 1 1 false
  | .MSIX_PBA => mkRow 0x33000 2 4 1 0 .ro 0 0 false
  -- R383, 12_host_interface.md
  | .WIN_CTRL => mkRow 0x40000 1 0 1 0 .rw 0xE88B5 0xFFFFF true
  | .WIN_SRC_MAC_LO => mkRow 0x40004 1 0 1 0 .rw 0 0xFFFFFFFF false
  | .WIN_SRC_MAC_HI => mkRow 0x40008 1 0 1 0 .rw 0 0xFFFF false
  | .WIN_PWE_STATUS => mkRow 0x40010 1 0 1 0 .ro 0 0 false
  | .WIN_PWE_POP => mkRow 0x40014 1 0 1 0 .wo 0 1 false
  | .WIN_EVENT => mkRow 0x40018 1 0 1 0 .w1c 0 0x7FF false
  | .WIN_IRQ_EN => mkRow 0x4001C 1 0 1 0 .rw 0 0x7FF false
  | .WIN_PWE_ENT => mkRow 0x40020 4 4 1 0 .ro 0 0 false
  | .WIN_ACCEPT_LO => mkRow 0x40100 8 8 1 0 .rw 0 0xFFFFFFFF true
  | .WIN_ACCEPT_HI => mkRow 0x40104 8 8 1 0 .rw 0 0x8FFFFFFF true
  | .WIN_CFG => mkRow 0x41000 8 0x40 1 0 .rw 0x50 0xFFF0077 true
  | .WIN_BASE => mkRow 0x41004 8 0x40 1 0 .rw 0 0x3FFF000 true
  | .WIN_PEER_MAC_LO => mkRow 0x41008 8 0x40 1 0 .rw 0 0xFFFFFFFF true
  | .WIN_PEER_MAC_HI => mkRow 0x4100C 8 0x40 1 0 .rw 0 0xFFFF true
  | .WIN_SEQ => mkRow 0x41010 8 0x40 1 0 .ro 0 0 false
  | .WIN_FENCE => mkRow 0x41014 8 0x40 1 0 .ro 0 0 false
  | .WIN_STATUS => mkRow 0x41018 8 0x40 1 0 .ro 0 0 false
  -- R58, 02_t1_ports_and_host_serdes.md
  | .PORT_CTRL => mkRow 0x100000 22 0x4000 1 0 .rw 0x400 0x800007FF false
  | .PORT_MAC_CFG => mkRow 0x100004 22 0x4000 1 0 .rw 0x800 0x3FFF false
  | .PORT_LINK_STATUS => mkRow 0x100010 22 0x4000 1 0 .ro 0 0 false
  | .PORT_LINK_EVENT => mkRow 0x100014 22 0x4000 1 0 .w1c 0 0xF false
  | .PORT_LINK_IRQ_EN => mkRow 0x100018 22 0x4000 1 0 .rw 0 0xF false
  | .PORT_FASTLINK_CFG => mkRow 0x100100 22 0x4000 1 0 .rw 0x141 0x1F1 false
  | .PORT_FASTLINK_STATUS => mkRow 0x100104 22 0x4000 1 0 .ro 0 0 false
  | .PORT_FASTLINK_CTRL => mkRow 0x100108 22 0x4000 1 0 .wo 0 1 false
  | .PORT_PLCA_CFG => mkRow 0x100200 22 0x4000 1 0 .rw 0x2008000 0xFFFFFF1 false
  | .PORT_PLCA_BURST => mkRow 0x100204 22 0x4000 1 0 .rw 0x8000 0xFFFF false
  | .PORT_PLCA_STATUS => mkRow 0x100208 22 0x4000 1 0 .ro 0 0 false
  | .PORT_TS_CFG => mkRow 0x100300 22 0x4000 1 0 .rw 3 7 false
  | .PORT_TS_RX_CORR => mkRow 0x100304 22 0x4000 1 0 .rw 0 0xFFFF false
  | .PORT_TS_TX_CORR => mkRow 0x100308 22 0x4000 1 0 .rw 0 0xFFFF false
  | .PORT_SECY_CFG => mkRow 0x100400 22 0x4000 1 0 .rw 0x39C 0x3FF false
  | .PORT_SECY_BYPASS => mkRow 0x100404 22 0x4000 1 0 .rw 0x888E 0xFFFFFFFF false
  | .PORT_SECY_REPLAY => mkRow 0x100408 22 0x4000 1 0 .rw 0 0xFFFFFFFF false
  -- R74, 03_parse_graph.md
  | .PAR_CTRL => mkRow 0x200000 1 0 1 0 .rw 1 1 false
  | .PAR_PORT_START => mkRow 0x200100 24 4 1 0 .rw 0 0x3F true
  | .PAR_PIC_MARK => mkRow 0x200200 1 0 1 0 .rw 0 0xFF true
  | .PAR_NODE_LEN => mkRow 0x201000 64 0x20 1 0 .rw 0 0x3FFFFFFF true
  | .PAR_NODE_SEL => mkRow 0x201004 64 0x20 1 0 .rw 0 0xFF0FFFFF true
  | .PAR_NODE_EXT => mkRow 0x201008 64 0x20 4 4 .rw 0 0xFC0FFF true
  | .PAR_TRANS_CTL => mkRow 0x202000 256 8 1 0 .rw 0 0x80007F3F true
  | .PAR_TRANS_VAL => mkRow 0x202004 256 8 1 0 .rw 0 0xFFFFFFFF true
  -- R130, 04_forwarding_tables.md
  | .LKP_CTRL => mkRow 0x300000 1 0 1 0 .rw 3 7 true
  | .LKP_AGE_CFG => mkRow 0x300004 1 0 1 0 .rw 0x24 0xFF true
  | .LKP_STREAM_SWEEP => mkRow 0x300008 1 0 1 0 .rw 0x1E848 0xFFFFFF true
  | .LKP_FDB_STATUS => mkRow 0x300010 1 0 1 0 .ro 0 0 false
  | .LKP_LEARN_STATUS => mkRow 0x300014 1 0 1 0 .ro 0 0 false
  | .LKP_FDB_CTRL => mkRow 0x300018 1 0 1 0 .wo 0 1 false
  | .LKP_RTR_MAC_LO => mkRow 0x300020 1 0 1 0 .rw 0 0xFFFFFFFF true
  | .LKP_RTR_MAC_HI => mkRow 0x300024 1 0 1 0 .rw 0 0xFFFF true
  | .LKP_ROUTE_STATUS => mkRow 0x300030 1 0 1 0 .ro 0 0 false
  | .LKP_BLOCKED_LO => mkRow 0x300040 16 8 1 0 .ro 0 0 false
  | .LKP_BLOCKED_HI => mkRow 0x300044 16 8 1 0 .ro 0 0 false
  | .LKP_PORT_CFG => mkRow 0x300100 24 4 1 0 .rw 0x2001 0x73FFF true
  | .LKP_PORT_LIMIT => mkRow 0x300200 24 4 1 0 .rw 0 0x3FFF true
  | .LKP_PORT_LEARNED => mkRow 0x300280 24 4 1 0 .ro 0 0 false
  | .LKP_PCP_MAP => mkRow 0x300300 24 4 1 0 .rw 0xFAC688 0xFFFFFF true
  | .LKP_PORT_GEN => mkRow 0x300380 24 4 1 0 .ro 0 0 false
  | .TBL_CMD => mkRow 0x301000 1 0 1 0 .rw 0 0x7FF false
  | .TBL_STATUS => mkRow 0x301004 1 0 1 0 .w1c 0 0x1000 false
  | .TBL_INDEX => mkRow 0x301008 1 0 1 0 .rw 0 0xFFFFFFFF false
  | .TBL_FILTER => mkRow 0x30100C 1 0 1 0 .rw 0 0x3FFFFF false
  | .TBL_DATA => mkRow 0x301040 16 4 1 0 .rw 0 0xFFFFFFFF false
  -- R165, 05_mastiff_firewall.md
  | .FW_CTRL => mkRow 0x400000 1 0 1 0 .rwl 0x3F 0x3F true
  | .FW_STATUS => mkRow 0x400004 1 0 1 0 .ro 0 0 false
  | .FW_CT_CTRL => mkRow 0x400008 1 0 1 0 .rw 3 7 true
  | .FW_CT_CMD => mkRow 0x40000C 1 0 1 0 .wo 0 1 false
  | .FW_CT_TMO => mkRow 0x400010 1 0 1 0 .rw 0xAF00A1E 0xFFFFFFFF true
  | .FW_CT_GEN => mkRow 0x400014 1 0 1 0 .ro 0 0 false
  | .FW_LOG_CFG => mkRow 0x400018 1 0 1 0 .rw 8 0x1FF true
  | .FW_DBG => mkRow 0x40001C 1 0 1 0 .rw 0 1 false
  | .FW_PORT_ZONE => mkRow 0x400100 23 4 1 0 .rw 0 0xF true
  | .FW_SVC_ZONE => mkRow 0x400180 1 0 1 0 .rw 0 0xFFF true
  | .FW_BUS_ZONE => mkRow 0x400184 1 0 1 0 .rw 0 0xFFFFFFFF true
  | .FW_LIN_ZONE => mkRow 0x400188 1 0 1 0 .rw 0 0xFFFF true
  | .FW_ZONE_INTRA => mkRow 0x400190 1 0 1 0 .rw 0 0xFFFF true
  | .FW_HOOK_CFG => mkRow 0x400200 4 4 1 0 .rw 0x400 0xF01 true
  | .FW_HOOK_STATUS => mkRow 0x400210 4 4 1 0 .ro 0 0 false
  -- R193, 06_shared_buffer_and_multicast.md
  | .BUF_CTRL => mkRow 0x500000 1 0 1 0 .rw 2 3 true
  | .BUF_CMD => mkRow 0x500004 1 0 1 0 .wo 0 1 false
  | .BUF_STATUS => mkRow 0x500008 1 0 1 0 .ro 0x8000 0 false
  | .BUF_SHARED => mkRow 0x50000C 1 0 1 0 .ro 0x65006500 0 false
  | .BUF_HOLD_STATUS => mkRow 0x500010 1 0 1 0 .ro 0x400800 0 false
  | .BUF_ECC_STATUS => mkRow 0x500014 1 0 1 0 .ro 0 0 false
  | .BUF_EVT_CFG => mkRow 0x500018 1 0 1 0 .rw 8 0xFF true
  | .BUF_DBG_INDEX => mkRow 0x500020 1 0 1 0 .rw 0 0x7FFF false
  | .BUF_DBG_DESC => mkRow 0x500024 5 4 1 0 .ro 0 0 false
  | .BUF_HOLD_RSV => mkRow 0x500100 24 4 1 0 .rw 0 0xFFF true
  | .BUF_PORT_HOLD => mkRow 0x500200 22 4 1 0 .rw 0xFA 0xFFFF true
  | .BUF_PORT_STATE => mkRow 0x500280 22 4 1 0 .ro 0 0 false
  | .BUF_Q_CFG => mkRow 0x501000 192 4 1 0 .rw 0x460024 0xFFFFFF true
  | .BUF_Q_DEPTH => mkRow 0x501400 192 4 1 0 .ro 0 0 false
  -- R230, 07_egress_scheduling.md
  | .TM_CTRL => mkRow 0x600000 1 0 1 0 .rw 0xB 0xF true
  | .TM_STATUS => mkRow 0x600004 1 0 1 0 .ro 0 0 false
  | .TM_EVT_CFG => mkRow 0x600008 1 0 1 0 .rw 8 0xFF true
  | .TM_PORT_SCHED => mkRow 0x600100 24 4 1 0 .rw 0x800 0xFFFF true
  | .TM_GATE_CFG => mkRow 0x600400 22 0x20 1 0 .rw 0x100 0x1FF01 true
  | .TM_GATE_CYCLE => mkRow 0x600404 22 0x20 1 0 .rw 1 0xFFFF true
  | .TM_GATE_BASE_LO => mkRow 0x600408 22 0x20 1 0 .rw 0 0xFFFFFFFF true
  | .TM_GATE_BASE_HI => mkRow 0x60040C 22 0x20 1 0 .rw 0 0xFFFF true
  | .TM_GATE_STATUS => mkRow 0x600410 22 0x20 1 0 .ro 0xFF00 0 false
  | .TM_GATE_ENT_STATE => mkRow 0x610000 22 0x800 256 8 .rw 0xFF 0xFF true
  | .TM_GATE_ENT_IVL => mkRow 0x610004 22 0x800 256 8 .rw 0x1F40 0x3FFFFFFF true
  | .TM_POL_CIR => mkRow 0x620000 1024 0x10 1 0 .rw 0 0x1FFFFFF true
  | .TM_POL_CBS => mkRow 0x620004 1024 0x10 1 0 .rw 0 0xFFFFF true
  | .TM_POL_PIR => mkRow 0x620008 1024 0x10 1 0 .rw 0 0xFFFFFF true
  | .TM_POL_PBS => mkRow 0x62000C 1024 0x10 1 0 .rw 0 0xFFFFF true
  | .TM_POL_TC => mkRow 0x624000 1024 8 1 0 .ro 0 0 false
  | .TM_POL_TP => mkRow 0x624004 1024 8 1 0 .ro 0 0 false
  | .TM_Q_SCHED => mkRow 0x630000 192 0x10 1 0 .rw 0x600 0x13FFF true
  | .TM_Q_IDLE_SLOPE => mkRow 0x630004 192 0x10 1 0 .rw 0 0xFFFFFF true
  | .TM_Q_HI_CREDIT => mkRow 0x630008 192 0x10 1 0 .rw 0x4000 0xFFFFF true
  | .TM_Q_MAXWIN => mkRow 0x63000C 192 0x10 1 0 .ro 0x80000000 0 false
  | .TM_Q_CREDIT => mkRow 0x631000 192 4 1 0 .ro 0 0 false
  | .TM_Q_MAX_DEPTH => mkRow 0x632000 192 4 1 0 .rc 0 0 false
  | .TM_Q_HEAD_AGE => mkRow 0x632400 192 4 1 0 .ro 0 0 false
  | .TM_Q_MAX_DELAY => mkRow 0x632800 192 4 1 0 .rc 0 0 false
  -- R292, 09_legacy_gateway.md
  | .GW_CTRL => mkRow 0x700000 1 0 1 0 .rw 0x7E09 0x7F0F true
  | .GW_STATUS => mkRow 0x700004 1 0 1 0 .ro 0x8000 0 false
  | .GW_START_CNT => mkRow 0x700008 1 0 1 0 .ro 0 0 false
  | .GW_TUN_SMAC_LO => mkRow 0x700010 1 0 1 0 .rw 0 0xFFFFFFFF true
  | .GW_TUN_SMAC_HI => mkRow 0x700014 1 0 1 0 .rw 0 0xFFFF true
  | .GW_CAN_CTRL => mkRow 0x701000 8 0x100 1 0 .rw 0x6412 0xFF7F false
  | .GW_CAN_NBT => mkRow 0x701004 8 0x100 1 0 .rw 0x78F3E01 0x3FFFFFFF false
  | .GW_CAN_DBT => mkRow 0x701008 8 0x100 1 0 .rw 0x89091C00 0x8F0F1F1F false
  | .GW_CAN_XBT => mkRow 0x70100C 8 0x100 1 0 .rw 0x81010400 0x8F0F1F1F false
  | .GW_CAN_XCVR => mkRow 0x701010 8 0x100 1 0 .rw 8 0x1F false
  | .GW_CAN_STATUS => mkRow 0x701014 8 0x100 1 0 .ro 3 0 false
  | .GW_CAN_EVENT => mkRow 0x701018 8 0x100 1 0 .w1c 0 0x3F false
  | .GW_CAN_IRQ_EN => mkRow 0x70101C 8 0x100 1 0 .rw 0 0x3F false
  | .GW_CAN_TXAGE => mkRow 0x701020 8 0x100 1 0 .rw 0 0xFFFF false
  | .GW_CAN_CMD => mkRow 0x701024 8 0x100 1 0 .wo 0 3 false
  | .GW_LIN_CTRL => mkRow 0x702000 4 0x100 1 0 .rw 8 0x3F0F false
  | .GW_LIN_BAUD => mkRow 0x702004 4 0x100 1 0 .rw 0x4B00 0xFFFF false
  | .GW_LIN_STATUS => mkRow 0x702008 4 0x100 1 0 .ro 0 0 false
  | .GW_LIN_EVENT => mkRow 0x70200C 4 0x100 1 0 .w1c 0 0x3F false
  | .GW_LIN_SCHED => mkRow 0x702080 4 0x100 32 4 .rw 0 0xFFFF003F true
  | .GW_TUN_CTRL => mkRow 0x703000 16 0x40 1 0 .rw 8 0x7FFFFF0F true
  | .GW_TUN_LEN => mkRow 0x703004 16 0x40 1 0 .rw 0x200 0x3FFF true
  | .GW_TUN_LSID_LO => mkRow 0x703008 16 0x40 1 0 .rw 0 0xFFFFFFFF true
  | .GW_TUN_LSID_HI => mkRow 0x70300C 16 0x40 1 0 .rw 0 0xFFFFFFFF true
  | .GW_TUN_PSID_LO => mkRow 0x703010 16 0x40 1 0 .rw 0 0xFFFFFFFF true
  | .GW_TUN_PSID_HI => mkRow 0x703014 16 0x40 1 0 .rw 0 0xFFFFFFFF true
  | .GW_TUN_DMAC_LO => mkRow 0x703018 16 0x40 1 0 .rw 0 0xFFFFFFFF true
  | .GW_TUN_DMAC_HI => mkRow 0x70301C 16 0x40 1 0 .rw 0 0xFFFF true
  | .GW_TUN_STATUS => mkRow 0x703020 16 0x40 1 0 .ro 0 0 false
  -- R324, 10_kelpie_engines.md
  | .KLP_CTRL => mkRow 0x800000 1 0 1 0 .rw 1 1 false
  | .KLP_STATUS => mkRow 0x800004 1 0 1 0 .ro 0 0 false
  | .KLP_LOAD_SLAB => mkRow 0x800010 1 0 1 0 .rw 0 0x7FFFF false
  | .KLP_LOAD_BEAT_LO => mkRow 0x800014 1 0 1 0 .rw 0 0xFFFFFFFF false
  | .KLP_LOAD_BEAT_HI => mkRow 0x800018 1 0 1 0 .rw 0 0x8000FFFF false
  | .KLP_LOAD_CMD => mkRow 0x80001C 1 0 1 0 .wo 0 0x30F false
  | .KLP_LOAD_STATUS => mkRow 0x800020 1 0 1 0 .ro 0 0 false
  | .KLP_ENG_CTRL => mkRow 0x801000 16 0x100 1 0 .rw 3 0xFF03 false
  | .KLP_ENG_CMD => mkRow 0x801004 16 0x100 1 0 .wo 0 1 false
  | .KLP_ENG_STATUS => mkRow 0x801008 16 0x100 1 0 .ro 0 0 false
  | .KLP_ENG_EVENT => mkRow 0x80100C 16 0x100 1 0 .w1c 0 0xF false
  | .KLP_ENG_IRQ_EN => mkRow 0x801010 16 0x100 1 0 .rw 0 0xF false
  | .KLP_ENG_BUSY => mkRow 0x801014 16 0x100 1 0 .ro 0 0 false
  | .KLP_ENG_MAX_BUSY => mkRow 0x801018 16 0x100 1 0 .rc 0 0 false
  | .KLP_ENG_IMAGE_CRC => mkRow 0x80101C 16 0x100 1 0 .ro 0 0 false
  | .KLP_ENG_WCET => mkRow 0x801020 16 0x100 8 4 .ro 0 0 false
  | .KLP_MBOX_IN => mkRow 0x801040 16 0x100 1 0 .rw 0 0xFFFFFFFF false
  | .KLP_MBOX_OUT => mkRow 0x801044 16 0x100 1 0 .ro 0 0 false
  -- R348, 11_time_and_triggers.md
  | .TIME_CTRL => mkRow 0x900000 1 0 1 0 .rw 1 1 true
  | .TIME_STATUS => mkRow 0x900004 1 0 1 0 .ro 0 0 false
  | .TIME_EVENT => mkRow 0x900008 1 0 1 0 .w1c 0 0x1F false
  | .TIME_IRQ_EN => mkRow 0x90000C 1 0 1 0 .rw 0 0x1F false
  | .TIME_CNT_LO => mkRow 0x900010 1 0 1 0 .ro 0 0 false
  | .TIME_CNT_HI => mkRow 0x900014 1 0 1 0 .ro 0 0 false
  | .TIME_BEAT_LO => mkRow 0x900018 1 0 1 0 .ro 0 0 false
  | .TIME_BEAT_HI => mkRow 0x90001C 1 0 1 0 .ro 0 0 false
  | .TIME_BEAT_ERR => mkRow 0x900020 1 0 1 0 .ro 0 0 false
  | .TIME_SNAP_CMD => mkRow 0x900030 1 0 1 0 .wo 0 1 false
  | .TIME_SNAP_STATUS => mkRow 0x900034 1 0 1 0 .ro 0 0 false
  | .TIME_SNAP_CNT_LO => mkRow 0x900040 1 0 1 0 .ro 0 0 false
  | .TIME_SNAP_CNT_HI => mkRow 0x900044 1 0 1 0 .ro 0 0 false
  | .TIME_SNAP_BEAT_LO => mkRow 0x900048 1 0 1 0 .ro 0 0 false
  | .TIME_SNAP_BEAT_HI => mkRow 0x90004C 1 0 1 0 .ro 0 0 false
  | .TIME_SNAP_BOFF => mkRow 0x900050 1 0 1 0 .ro 0 0 false
  | .TIME_SNAP_DOM_LO => mkRow 0x900060 4 8 1 0 .ro 0 0 false
  | .TIME_SNAP_DOM_HI => mkRow 0x900064 4 8 1 0 .ro 0 0 false
  | .TIME_DOM_CFG => mkRow 0x900100 4 0x40 1 0 .rw 0xF6030000 0xFF07FF07 true
  | .TIME_DOM_RATE => mkRow 0x900104 4 0x40 1 0 .rw 0 0xFFFFFFFF false
  | .TIME_DOM_ADJ_LO => mkRow 0x900108 4 0x40 1 0 .rw 0 0xFFFFFFFF false
  | .TIME_DOM_ADJ_HI => mkRow 0x90010C 4 0x40 1 0 .rw 0 0xFFFFFFFF false
  | .TIME_DOM_SET_LO => mkRow 0x900110 4 0x40 1 0 .rw 0 0xFFFFFFFF false
  | .TIME_DOM_SET_HI => mkRow 0x900114 4 0x40 1 0 .rw 0 0xFFFFFFFF false
  | .TIME_DOM_CMD => mkRow 0x900118 4 0x40 1 0 .wo 0 7 false
  | .TIME_DOM_STATUS => mkRow 0x90011C 4 0x40 1 0 .ro 0 0 false
  | .TIME_DOM_RATE_USED => mkRow 0x900120 4 0x40 1 0 .ro 0 0 false
  | .TIME_PTP_PORT => mkRow 0x900300 22 4 1 0 .rw 0 0xFFF true
  | .TIME_CMP_CFG => mkRow 0x900400 32 0x10 1 0 .rw 0 0x1F true
  | .TIME_CMP_T_LO => mkRow 0x900404 32 0x10 1 0 .rw 0 0xFFFFFFFF true
  | .TIME_CMP_T_HI => mkRow 0x900408 32 0x10 1 0 .rw 0 0xFFFFFFFF true
  | .TIME_CMP_EVENT => mkRow 0x900600 1 0 1 0 .w1c 0 0xFFFFFFFF false
  | .TIME_TRIG_CFG => mkRow 0x900800 16 0x20 1 0 .rw 0 0xFFF true
  | .TIME_TRIG_START_LO => mkRow 0x900804 16 0x20 1 0 .rw 0 0xFFFFFFFF true
  | .TIME_TRIG_START_HI => mkRow 0x900808 16 0x20 1 0 .rw 0 0xFFFFFFFF true
  | .TIME_TRIG_PERIOD => mkRow 0x90080C 16 0x20 1 0 .rw 0x3E8 0xFFFFFFFF true
  | .TIME_TRIG_PERIOD_FRAC => mkRow 0x900810 16 0x20 1 0 .rw 0 0xFFFFFFFF true
  | .TIME_TRIG_WIDTH => mkRow 0x900814 16 0x20 1 0 .rw 0x20 0xFFFFFFFF true
  | .TIME_TRIG_STATUS => mkRow 0x900818 16 0x20 1 0 .ro 0 0 false
  | .TIME_CAP_CFG => mkRow 0x900C00 8 0x10 1 0 .rw 0x202 0xFF1F true
  | .TIME_CAP_FIFO_LO => mkRow 0x900C04 8 0x10 1 0 .ro 0 0 false
  | .TIME_CAP_FIFO_HI => mkRow 0x900C08 8 0x10 1 0 .rc 0 0 false
  | .TIME_CAP_STATUS => mkRow 0x900C0C 8 0x10 1 0 .ro 0 0 false
  -- R408, 13_cipher_and_kennel.md
  | .CRY_CTRL => mkRow 0xA00000 1 0 1 0 .rw 3 3 true
  | .CRY_STATUS => mkRow 0xA00004 1 0 1 0 .ro 0xF 0 false
  | .CRY_EVENT => mkRow 0xA00008 1 0 1 0 .w1c 0 0x7F false
  | .CRY_IRQ_EN => mkRow 0xA0000C 1 0 1 0 .rw 0 0x7F false
  | .CRY_STORE_SEQ => mkRow 0xA00010 1 0 1 0 .ro 0 0 false
  | .CRY_CORE_STATUS => mkRow 0xA00014 1 0 1 0 .ro 0 0 false
  | .CRY_SLOT_STATUS => mkRow 0xA00100 64 4 1 0 .ro 0 0 false
  | .CRY_TXSC_CFG => mkRow 0xA01000 6 0x1000 1 0 .rw 0 7 false
  | .CRY_TXSC_SCI_LO => mkRow 0xA01008 6 0x1000 1 0 .rw 0 0xFFFFFFFF false
  | .CRY_TXSC_SCI_HI => mkRow 0xA0100C 6 0x1000 1 0 .rw 0 0xFFFFFFFF false
  | .CRY_TXSA_CFG => mkRow 0xA01100 6 0x1000 4 0x40 .rw 0 0x7F false
  | .CRY_TXSA_NEXT_PN_LO => mkRow 0xA01104 6 0x1000 4 0x40 .rw 1 0xFFFFFFFF false
  | .CRY_TXSA_NEXT_PN_HI => mkRow 0xA01108 6 0x1000 4 0x40 .rw 0 0xFFFFFFFF false
  | .CRY_TXSA_SSCI => mkRow 0xA0110C 6 0x1000 4 0x40 .rw 0 0xFFFFFFFF false
  | .CRY_TXSA_SALT0 => mkRow 0xA01110 6 0x1000 4 0x40 .rw 0 0xFFFFFFFF false
  | .CRY_TXSA_SALT1 => mkRow 0xA01114 6 0x1000 4 0x40 .rw 0 0xFFFFFFFF false
  | .CRY_TXSA_SALT2 => mkRow 0xA01118 6 0x1000 4 0x40 .rw 0 0xFFFFFFFF false
  | .CRY_TXSA_THRESH_LO => mkRow 0xA0111C 6 0x1000 4 0x40 .rw 0xC0000000 0xFFFFFFFF false
  | .CRY_TXSA_THRESH_HI => mkRow 0xA01120 6 0x1000 4 0x40 .rw 0 0xFFFFFFFF false
  | .CRY_RXSC_CFG => mkRow 0xA01400 6 0x1000 4 0x10 .rw 0 1 false
  | .CRY_RXSC_SCI_LO => mkRow 0xA01404 6 0x1000 4 0x10 .rw 0 0xFFFFFFFF false
  | .CRY_RXSC_SCI_HI => mkRow 0xA01408 6 0x1000 4 0x10 .rw 0 0xFFFFFFFF false
  | .CRY_RXSA_CFG => mkRow 0xA01800 6 0x1000 16 0x40 .rw 0 0x7F false
  | .CRY_RXSA_NEXT_PN_LO => mkRow 0xA01804 6 0x1000 16 0x40 .rw 1 0xFFFFFFFF false
  | .CRY_RXSA_NEXT_PN_HI => mkRow 0xA01808 6 0x1000 16 0x40 .rw 0 0xFFFFFFFF false
  | .CRY_RXSA_SSCI => mkRow 0xA0180C 6 0x1000 16 0x40 .rw 0 0xFFFFFFFF false
  | .CRY_RXSA_SALT0 => mkRow 0xA01810 6 0x1000 16 0x40 .rw 0 0xFFFFFFFF false
  | .CRY_RXSA_SALT1 => mkRow 0xA01814 6 0x1000 16 0x40 .rw 0 0xFFFFFFFF false
  | .CRY_RXSA_SALT2 => mkRow 0xA01818 6 0x1000 16 0x40 .rw 0 0xFFFFFFFF false
  -- R259, 08_twin_decision_planes.md
  | .TWIN_CTRL => mkRow 0xB00000 1 0 1 0 .rw 0x2006 0x3F07 true
  | .TWIN_CMD => mkRow 0xB00004 1 0 1 0 .wo 0 1 false
  | .TWIN_STATUS => mkRow 0xB00008 1 0 1 0 .ro 0 0 false
  | .TWIN_EVENT => mkRow 0xB0000C 1 0 1 0 .w1c 0 0x7F false
  | .TWIN_IRQ_EN => mkRow 0xB00010 1 0 1 0 .rw 0 0x7F false
  | .TWIN_HEALTH_A => mkRow 0xB00020 1 0 1 0 .ro 0 0 false
  | .TWIN_HEALTH_B => mkRow 0xB00024 1 0 1 0 .ro 0 0 false
  | .TWIN_COPY_STATUS => mkRow 0xB00028 1 0 1 0 .ro 0 0 false
  | .TWIN_LAST_SW_LO => mkRow 0xB00030 1 0 1 0 .ro 0 0 false
  | .TWIN_LAST_SW_HI => mkRow 0xB00034 1 0 1 0 .ro 0 0 false
  | .TWIN_SAFE_STATUS => mkRow 0xB00040 1 0 1 0 .ro 0 0 false
  | .TWIN_SAFE_CTRL => mkRow 0xB00044 1 0 1 0 .wo 0 0x3FFFF false
  | .TWIN_SAFE_RESULT => mkRow 0xB00048 1 0 1 0 .ro 0 0 false
  -- R494, 16_update_and_configuration.md
  | .UPD_CTRL => mkRow 0xC00000 1 0 1 0 .rw 3 3 true
  | .UPD_STATUS => mkRow 0xC00004 1 0 1 0 .ro 0 0 false
  | .UPD_EVENT => mkRow 0xC00008 1 0 1 0 .w1c 0 0x3FFF false
  | .UPD_IRQ_EN => mkRow 0xC0000C 1 0 1 0 .rw 0 0x3FFF false
  | .UPD_FW_VERSION => mkRow 0xC00010 1 0 1 0 .ro 0 0 false
  | .UPD_FW_SVN => mkRow 0xC00014 1 0 1 0 .ro 0 0 false
  | .UPD_STAGE_OWNER => mkRow 0xC00018 1 0 1 0 .ro 0 0 false
  | .UPD_STAGE_STATUS => mkRow 0xC0001C 1 0 1 0 .ro 0 0 false
  | .UPD_ACT_STATUS => mkRow 0xC00020 1 0 1 0 .ro 0 0 false
  | .UPD_CFG_CMD => mkRow 0xC00030 1 0 1 0 .wo 0 0xF false
  | .UPD_CFG_BEAT_LO => mkRow 0xC00034 1 0 1 0 .rw 0 0xFFFFFFFF false
  | .UPD_CFG_BEAT_HI => mkRow 0xC00038 1 0 1 0 .rw 0 0xFFFF false
  | .UPD_CFG_EPOCH_NEXT => mkRow 0xC0003C 1 0 1 0 .rw 0 0xFFFFFFFF false
  | .UPD_CFG_STATUS => mkRow 0xC00040 1 0 1 0 .ro 0 0 false
  | .UPD_CFG_REJ => mkRow 0xC00044 1 0 1 0 .ro 0 0 false
  | .UPD_CFG_REJ_ITEM => mkRow 0xC00048 1 0 1 0 .ro 0 0 false
  | .UPD_CFG_EPOCH => mkRow 0xC0004C 1 0 1 0 .ro 0 0 false
  | .UPD_FP_LO => mkRow 0xC00050 1 0 1 0 .ro 0 0 false
  | .UPD_FP_HI => mkRow 0xC00054 1 0 1 0 .ro 0 0 false
  | .UPD_FP_PREP_LO => mkRow 0xC00058 1 0 1 0 .ro 0 0 false
  | .UPD_FP_PREP_HI => mkRow 0xC0005C 1 0 1 0 .ro 0 0 false
  | .UPD_LLDP_OUI => mkRow 0xC00060 1 0 1 0 .ro 0 0 false
  | .UPD_FP_PORTS => mkRow 0xC00064 1 0 1 0 .rw 0x3FFFFF 0xFFFFFF true
  | .UPD_PEER_MAC_LO => mkRow 0xC00100 32 0x20 1 0 .ro 0 0 false
  | .UPD_PEER_MAC_HI => mkRow 0xC00104 32 0x20 1 0 .ro 0 0 false
  | .UPD_PEER_EPOCH => mkRow 0xC00108 32 0x20 1 0 .ro 0 0 false
  | .UPD_PEER_FP_LO => mkRow 0xC0010C 32 0x20 1 0 .ro 0 0 false
  | .UPD_PEER_FP_HI => mkRow 0xC00110 32 0x20 1 0 .ro 0 0 false
  | .UPD_PEER_AGE => mkRow 0xC00114 32 0x20 1 0 .ro 0 0 false
  | .UPD_PEER_EXP_MAC_LO => mkRow 0xC00500 32 0x20 1 0 .rw 0 0xFFFFFFFF false
  | .UPD_PEER_EXP_MAC_HI => mkRow 0xC00504 32 0x20 1 0 .rw 0 0x8000FFFF false
  | .UPD_PEER_EXP_EPOCH => mkRow 0xC00508 32 0x20 1 0 .rw 0 0xFFFFFFFF false
  | .UPD_PEER_EXP_FP_LO => mkRow 0xC0050C 32 0x20 1 0 .rw 0 0xFFFFFFFF false
  | .UPD_PEER_EXP_FP_HI => mkRow 0xC00510 32 0x20 1 0 .rw 0 0xFFFFFFFF false
  | .UPD_RES_OWNER => mkRow 0xC00A00 66 4 1 0 .ro 0 0 false
  -- R428, 14_retriever_and_check_snoopers.md
  | .CHK_CTRL => mkRow 0xD00000 1 0 1 0 .rw 1 1 true
  | .CHK_EVENT => mkRow 0xD00004 1 0 1 0 .w1c 0 0xFFFF false
  | .CHK_IRQ_EN => mkRow 0xD00008 1 0 1 0 .rw 0 0xFFFF false
  | .CHK_CFG => mkRow 0xD00100 16 0x20 1 0 .rw 6 0xFFF0007 true
  | .CHK_STATUS => mkRow 0xD00104 16 0x20 1 0 .ro 0 0 false
  | .CHK_LAST_CALC => mkRow 0xD00108 16 0x20 1 0 .ro 0 0 false
  | .CHK_LAST_RECV => mkRow 0xD0010C 16 0x20 1 0 .ro 0 0 false
  -- R427, 14_retriever_and_check_snoopers.md
  | .REC_CTRL => mkRow 0xE00000 1 0 1 0 .rw 2 0xFF true
  | .REC_CMD => mkRow 0xE00004 1 0 1 0 .wo 0 3 false
  | .REC_STATUS => mkRow 0xE00008 1 0 1 0 .ro 0 0 false
  | .REC_EVENT => mkRow 0xE0000C 1 0 1 0 .w1c 0 0xF false
  | .REC_IRQ_EN => mkRow 0xE00010 1 0 1 0 .rw 0 0xF false
  | .REC_SPAN => mkRow 0xE00014 1 0 1 0 .rw 0x12C0064 0xFFFFFFFF true
  | .REC_TRIG_TIME_LO => mkRow 0xE00018 1 0 1 0 .ro 0 0 false
  | .REC_TRIG_TIME_HI => mkRow 0xE0001C 1 0 1 0 .ro 0 0 false
  | .REC_START_CNT => mkRow 0xE00020 1 0 1 0 .ro 0 0 false
  | .REC_ANN_CFG => mkRow 0xE00024 1 0 1 0 .rw 0x500088B6 0x7FFFFFFF true
  | .REC_ANN_DMAC_LO => mkRow 0xE00028 1 0 1 0 .rw 0 0xFFFFFFFF true
  | .REC_ANN_DMAC_HI => mkRow 0xE0002C 1 0 1 0 .rw 0 0xFFFF true
  | .REC_TAP_CFG => mkRow 0xE00100 2 0x80 1 0 .rw 0x80FA04 0xFFFFFF true
  | .REC_TAP_RING => mkRow 0xE00104 2 0x80 1 0 .rw 0 0xFFFFFFFF true
  | .REC_TAP_SERIAL_LO => mkRow 0xE00108 2 0x80 1 0 .ro 0 0 false
  | .REC_TAP_SERIAL_HI => mkRow 0xE0010C 2 0x80 1 0 .ro 0 0 false
  | .REC_TAP_KEEP_FIRST_LO => mkRow 0xE00110 2 0x80 1 0 .ro 0 0 false
  | .REC_TAP_KEEP_FIRST_HI => mkRow 0xE00114 2 0x80 1 0 .ro 0 0 false
  | .REC_TAP_KEEP_LAST_LO => mkRow 0xE00118 2 0x80 1 0 .ro 0 0 false
  | .REC_TAP_KEEP_LAST_HI => mkRow 0xE0011C 2 0x80 1 0 .ro 0 0 false
  | .REC_TAP_STATUS => mkRow 0xE00120 2 0x80 1 0 .ro 0 0 false
  | .REC_TAP_STREAM => mkRow 0xE00140 2 0x80 16 4 .rw 0 0x80000FFF true
  -- R521, 18_telemetry_and_events.md
  | .TEL_CTRL => mkRow 0xF00000 1 0 1 0 .rw 1 1 true
  | .TEL_SNAP_CMD => mkRow 0xF00004 1 0 1 0 .wo 0 7 false
  | .TEL_SNAP_AT_LO => mkRow 0xF00008 1 0 1 0 .rw 0 0xFFFFFFFF false
  | .TEL_SNAP_AT_HI => mkRow 0xF0000C 1 0 1 0 .rw 0 0xFFFF false
  | .TEL_SNAP_STATUS => mkRow 0xF00010 1 0 1 0 .ro 0 0 false
  | .TEL_SNAP_BEAT_LO => mkRow 0xF00014 1 0 1 0 .ro 0 0 false
  | .TEL_SNAP_BEAT_HI => mkRow 0xF00018 1 0 1 0 .ro 0 0 false

/-- Registers of the block at 0x0. -/
def Reg.block0 : List Reg :=
  [
   .GLB_DEVICE_ID, .GLB_LOCK, .GLB_SHEP_STATUS, .GLB_GPIO_OE, .GLB_GPIO_OUT, .GLB_GPIO_IN]

/-- Registers of the block at 0x10000. -/
def Reg.block1 : List Reg :=
  [
   .CLK_GATE, .CLK_EVENT, .CLK_IRQ_EN, .CLK_MON_STATUS, .CLK_XING_OVF_SRC, .CLK_HANG_STATUS, .CLK_START_STATUS,
   .CLK_RST_CMD, .CLK_DOMAIN_STATUS, .CLK_RST_CAUSE]

/-- Registers of the block at 0x20000. -/
def Reg.block2 : List Reg :=
  [
   .BUG_PWR_STATUS, .BUG_SLEEP_CMD, .BUG_SLEEP_CFG, .BUG_EVENT, .BUG_IRQ_EN, .BUG_ABORT, .BUG_VBAT, .BUG_RAIL_STATUS,
   .BUG_DOZE_CFG, .BUG_DOZE_BUS, .BUG_WAKE_CFG, .BUG_WAKE_PIN, .BUG_TC10_CFG, .BUG_WAKE_PORTS, .BUG_INH_CFG,
   .BUG_SW_CFG, .BUG_WAKE_TIMER, .BUG_WAKE_LATCH, .BUG_WAKE_CLR, .BUG_SW_ID, .BUG_SW_IDMASK, .BUG_SW_DATA_LO,
   .BUG_SW_DATA_HI, .BUG_SW_DMASK_LO, .BUG_SW_DMASK_HI, .BUG_SW_CTRL, .KEEP_HDR, .KEEP_BOOT, .KEEP_STAGE_TAG,
   .KEEP_CFG_EPOCH_HI, .KEEP_SAFE_CAUSE, .KEEP_FAULT_HEAD, .KEEP_CTR, .KEEP_KS_PTR0, .KEEP_KS_PTR1, .KEEP_RETIRED,
   .KEEP_COEF, .KEEP_FAULT, .KEEP_HOST]

/-- Registers of the block at 0x30000. -/
def Reg.block3 : List Reg :=
  [
   .HIF_CTRL, .HIF_STATUS, .HIF_EVENT, .HIF_IRQ_EN, .HIF_KICK, .HIF_BAR0_SEQ, .HIF_BAD_READ_ADDR, .HIF_DB_BASE_LO,
   .HIF_DB_BASE_HI, .HIF_XW_BASE_LO, .HIF_XW_BASE_HI, .HIF_XW_FLAG_LO, .HIF_XW_FLAG_HI, .HIF_XW_CFG, .HIF_XW_RECLAIM,
   .HIF_XW_STATUS, .HIF_EVT_ROUTE, .HIF_MISC_VEC, .HIF_VEC_MOD, .HIF_VEC_STATUS, .HIF_TXR_BASE_LO, .HIF_TXR_BASE_HI,
   .HIF_TXR_CFG, .HIF_TXR_HEAD, .HIF_TXR_TAIL, .HIF_TXR_CMD, .HIF_RXR_BASE_LO, .HIF_RXR_BASE_HI, .HIF_RXR_CFG,
   .HIF_RXR_HEAD, .HIF_RXR_TAIL, .HIF_RXR_CMD, .HIF_CMR_BASE_LO, .HIF_CMR_BASE_HI, .HIF_CMR_CFG, .HIF_CMR_HEAD,
   .HIF_CMR_TAIL, .HIF_CMR_CMD, .HIF_EVR_BASE_LO, .HIF_EVR_BASE_HI, .HIF_EVR_CFG, .HIF_EVR_HEAD, .HIF_EVR_TAIL,
   .HIF_EVR_CMD, .HIF_EVR_WB_LO, .HIF_EVR_WB_HI, .HIF_RX_MAP, .MSIX_ADDR_LO, .MSIX_ADDR_HI, .MSIX_DATA, .MSIX_CTRL,
   .MSIX_PBA]

/-- Registers of the block at 0x40000. -/
def Reg.block4 : List Reg :=
  [
   .WIN_CTRL, .WIN_SRC_MAC_LO, .WIN_SRC_MAC_HI, .WIN_PWE_STATUS, .WIN_PWE_POP, .WIN_EVENT, .WIN_IRQ_EN, .WIN_PWE_ENT,
   .WIN_ACCEPT_LO, .WIN_ACCEPT_HI, .WIN_CFG, .WIN_BASE, .WIN_PEER_MAC_LO, .WIN_PEER_MAC_HI, .WIN_SEQ, .WIN_FENCE,
   .WIN_STATUS]

/-- Registers of the block at 0x100000. -/
def Reg.block10 : List Reg :=
  [
   .PORT_CTRL, .PORT_MAC_CFG, .PORT_LINK_STATUS, .PORT_LINK_EVENT, .PORT_LINK_IRQ_EN, .PORT_FASTLINK_CFG,
   .PORT_FASTLINK_STATUS, .PORT_FASTLINK_CTRL, .PORT_PLCA_CFG, .PORT_PLCA_BURST, .PORT_PLCA_STATUS, .PORT_TS_CFG,
   .PORT_TS_RX_CORR, .PORT_TS_TX_CORR, .PORT_SECY_CFG, .PORT_SECY_BYPASS, .PORT_SECY_REPLAY]

/-- Registers of the block at 0x200000. -/
def Reg.block20 : List Reg :=
  [
   .PAR_CTRL, .PAR_PORT_START, .PAR_PIC_MARK, .PAR_NODE_LEN, .PAR_NODE_SEL, .PAR_NODE_EXT, .PAR_TRANS_CTL,
   .PAR_TRANS_VAL]

/-- Registers of the block at 0x300000. -/
def Reg.block30 : List Reg :=
  [
   .LKP_CTRL, .LKP_AGE_CFG, .LKP_STREAM_SWEEP, .LKP_FDB_STATUS, .LKP_LEARN_STATUS, .LKP_FDB_CTRL, .LKP_RTR_MAC_LO,
   .LKP_RTR_MAC_HI, .LKP_ROUTE_STATUS, .LKP_BLOCKED_LO, .LKP_BLOCKED_HI, .LKP_PORT_CFG, .LKP_PORT_LIMIT,
   .LKP_PORT_LEARNED, .LKP_PCP_MAP, .LKP_PORT_GEN, .TBL_CMD, .TBL_STATUS, .TBL_INDEX, .TBL_FILTER, .TBL_DATA]

/-- Registers of the block at 0x400000. -/
def Reg.block40 : List Reg :=
  [
   .FW_CTRL, .FW_STATUS, .FW_CT_CTRL, .FW_CT_CMD, .FW_CT_TMO, .FW_CT_GEN, .FW_LOG_CFG, .FW_DBG, .FW_PORT_ZONE,
   .FW_SVC_ZONE, .FW_BUS_ZONE, .FW_LIN_ZONE, .FW_ZONE_INTRA, .FW_HOOK_CFG, .FW_HOOK_STATUS]

/-- Registers of the block at 0x500000. -/
def Reg.block50 : List Reg :=
  [
   .BUF_CTRL, .BUF_CMD, .BUF_STATUS, .BUF_SHARED, .BUF_HOLD_STATUS, .BUF_ECC_STATUS, .BUF_EVT_CFG, .BUF_DBG_INDEX,
   .BUF_DBG_DESC, .BUF_HOLD_RSV, .BUF_PORT_HOLD, .BUF_PORT_STATE, .BUF_Q_CFG, .BUF_Q_DEPTH]

/-- Registers of the block at 0x600000. -/
def Reg.block60 : List Reg :=
  [
   .TM_CTRL, .TM_STATUS, .TM_EVT_CFG, .TM_PORT_SCHED, .TM_GATE_CFG, .TM_GATE_CYCLE, .TM_GATE_BASE_LO,
   .TM_GATE_BASE_HI, .TM_GATE_STATUS, .TM_GATE_ENT_STATE, .TM_GATE_ENT_IVL, .TM_POL_CIR, .TM_POL_CBS, .TM_POL_PIR,
   .TM_POL_PBS, .TM_POL_TC, .TM_POL_TP, .TM_Q_SCHED, .TM_Q_IDLE_SLOPE, .TM_Q_HI_CREDIT, .TM_Q_MAXWIN, .TM_Q_CREDIT,
   .TM_Q_MAX_DEPTH, .TM_Q_HEAD_AGE, .TM_Q_MAX_DELAY]

/-- Registers of the block at 0x700000. -/
def Reg.block70 : List Reg :=
  [
   .GW_CTRL, .GW_STATUS, .GW_START_CNT, .GW_TUN_SMAC_LO, .GW_TUN_SMAC_HI, .GW_CAN_CTRL, .GW_CAN_NBT, .GW_CAN_DBT,
   .GW_CAN_XBT, .GW_CAN_XCVR, .GW_CAN_STATUS, .GW_CAN_EVENT, .GW_CAN_IRQ_EN, .GW_CAN_TXAGE, .GW_CAN_CMD,
   .GW_LIN_CTRL, .GW_LIN_BAUD, .GW_LIN_STATUS, .GW_LIN_EVENT, .GW_LIN_SCHED, .GW_TUN_CTRL, .GW_TUN_LEN,
   .GW_TUN_LSID_LO, .GW_TUN_LSID_HI, .GW_TUN_PSID_LO, .GW_TUN_PSID_HI, .GW_TUN_DMAC_LO, .GW_TUN_DMAC_HI,
   .GW_TUN_STATUS]

/-- Registers of the block at 0x800000. -/
def Reg.block80 : List Reg :=
  [
   .KLP_CTRL, .KLP_STATUS, .KLP_LOAD_SLAB, .KLP_LOAD_BEAT_LO, .KLP_LOAD_BEAT_HI, .KLP_LOAD_CMD, .KLP_LOAD_STATUS,
   .KLP_ENG_CTRL, .KLP_ENG_CMD, .KLP_ENG_STATUS, .KLP_ENG_EVENT, .KLP_ENG_IRQ_EN, .KLP_ENG_BUSY, .KLP_ENG_MAX_BUSY,
   .KLP_ENG_IMAGE_CRC, .KLP_ENG_WCET, .KLP_MBOX_IN, .KLP_MBOX_OUT]

/-- Registers of the block at 0x900000. -/
def Reg.block90 : List Reg :=
  [
   .TIME_CTRL, .TIME_STATUS, .TIME_EVENT, .TIME_IRQ_EN, .TIME_CNT_LO, .TIME_CNT_HI, .TIME_BEAT_LO, .TIME_BEAT_HI,
   .TIME_BEAT_ERR, .TIME_SNAP_CMD, .TIME_SNAP_STATUS, .TIME_SNAP_CNT_LO, .TIME_SNAP_CNT_HI, .TIME_SNAP_BEAT_LO,
   .TIME_SNAP_BEAT_HI, .TIME_SNAP_BOFF, .TIME_SNAP_DOM_LO, .TIME_SNAP_DOM_HI, .TIME_DOM_CFG, .TIME_DOM_RATE,
   .TIME_DOM_ADJ_LO, .TIME_DOM_ADJ_HI, .TIME_DOM_SET_LO, .TIME_DOM_SET_HI, .TIME_DOM_CMD, .TIME_DOM_STATUS,
   .TIME_DOM_RATE_USED, .TIME_PTP_PORT, .TIME_CMP_CFG, .TIME_CMP_T_LO, .TIME_CMP_T_HI, .TIME_CMP_EVENT,
   .TIME_TRIG_CFG, .TIME_TRIG_START_LO, .TIME_TRIG_START_HI, .TIME_TRIG_PERIOD, .TIME_TRIG_PERIOD_FRAC,
   .TIME_TRIG_WIDTH, .TIME_TRIG_STATUS, .TIME_CAP_CFG, .TIME_CAP_FIFO_LO, .TIME_CAP_FIFO_HI, .TIME_CAP_STATUS]

/-- Registers of the block at 0xA00000. -/
def Reg.blockA0 : List Reg :=
  [
   .CRY_CTRL, .CRY_STATUS, .CRY_EVENT, .CRY_IRQ_EN, .CRY_STORE_SEQ, .CRY_CORE_STATUS, .CRY_SLOT_STATUS,
   .CRY_TXSC_CFG, .CRY_TXSC_SCI_LO, .CRY_TXSC_SCI_HI, .CRY_TXSA_CFG, .CRY_TXSA_NEXT_PN_LO, .CRY_TXSA_NEXT_PN_HI,
   .CRY_TXSA_SSCI, .CRY_TXSA_SALT0, .CRY_TXSA_SALT1, .CRY_TXSA_SALT2, .CRY_TXSA_THRESH_LO, .CRY_TXSA_THRESH_HI,
   .CRY_RXSC_CFG, .CRY_RXSC_SCI_LO, .CRY_RXSC_SCI_HI, .CRY_RXSA_CFG, .CRY_RXSA_NEXT_PN_LO, .CRY_RXSA_NEXT_PN_HI,
   .CRY_RXSA_SSCI, .CRY_RXSA_SALT0, .CRY_RXSA_SALT1, .CRY_RXSA_SALT2]

/-- Registers of the block at 0xB00000. -/
def Reg.blockB0 : List Reg :=
  [
   .TWIN_CTRL, .TWIN_CMD, .TWIN_STATUS, .TWIN_EVENT, .TWIN_IRQ_EN, .TWIN_HEALTH_A, .TWIN_HEALTH_B, .TWIN_COPY_STATUS,
   .TWIN_LAST_SW_LO, .TWIN_LAST_SW_HI, .TWIN_SAFE_STATUS, .TWIN_SAFE_CTRL, .TWIN_SAFE_RESULT]

/-- Registers of the block at 0xC00000. -/
def Reg.blockC0 : List Reg :=
  [
   .UPD_CTRL, .UPD_STATUS, .UPD_EVENT, .UPD_IRQ_EN, .UPD_FW_VERSION, .UPD_FW_SVN, .UPD_STAGE_OWNER,
   .UPD_STAGE_STATUS, .UPD_ACT_STATUS, .UPD_CFG_CMD, .UPD_CFG_BEAT_LO, .UPD_CFG_BEAT_HI, .UPD_CFG_EPOCH_NEXT,
   .UPD_CFG_STATUS, .UPD_CFG_REJ, .UPD_CFG_REJ_ITEM, .UPD_CFG_EPOCH, .UPD_FP_LO, .UPD_FP_HI, .UPD_FP_PREP_LO,
   .UPD_FP_PREP_HI, .UPD_LLDP_OUI, .UPD_FP_PORTS, .UPD_PEER_MAC_LO, .UPD_PEER_MAC_HI, .UPD_PEER_EPOCH,
   .UPD_PEER_FP_LO, .UPD_PEER_FP_HI, .UPD_PEER_AGE, .UPD_PEER_EXP_MAC_LO, .UPD_PEER_EXP_MAC_HI, .UPD_PEER_EXP_EPOCH,
   .UPD_PEER_EXP_FP_LO, .UPD_PEER_EXP_FP_HI, .UPD_RES_OWNER]

/-- Registers of the block at 0xD00000. -/
def Reg.blockD0 : List Reg :=
  [
   .CHK_CTRL, .CHK_EVENT, .CHK_IRQ_EN, .CHK_CFG, .CHK_STATUS, .CHK_LAST_CALC, .CHK_LAST_RECV]

/-- Registers of the block at 0xE00000. -/
def Reg.blockE0 : List Reg :=
  [
   .REC_CTRL, .REC_CMD, .REC_STATUS, .REC_EVENT, .REC_IRQ_EN, .REC_SPAN, .REC_TRIG_TIME_LO, .REC_TRIG_TIME_HI,
   .REC_START_CNT, .REC_ANN_CFG, .REC_ANN_DMAC_LO, .REC_ANN_DMAC_HI, .REC_TAP_CFG, .REC_TAP_RING, .REC_TAP_SERIAL_LO,
   .REC_TAP_SERIAL_HI, .REC_TAP_KEEP_FIRST_LO, .REC_TAP_KEEP_FIRST_HI, .REC_TAP_KEEP_LAST_LO, .REC_TAP_KEEP_LAST_HI,
   .REC_TAP_STATUS, .REC_TAP_STREAM]

/-- Registers of the block at 0xF00000. -/
def Reg.blockF0 : List Reg :=
  [
   .TEL_CTRL, .TEL_SNAP_CMD, .TEL_SNAP_AT_LO, .TEL_SNAP_AT_HI, .TEL_SNAP_STATUS, .TEL_SNAP_BEAT_LO, .TEL_SNAP_BEAT_HI]

/-- The registers of the block that holds an address (block bases of R522). -/
def Reg.blockOf (a : Nat) : List Reg :=
  if a < 0x100000 then
    match a / 0x10000 with
    | 0 => Reg.block0
    | 1 => Reg.block1
    | 2 => Reg.block2
    | 3 => Reg.block3
    | 4 => Reg.block4
    | _ => []
  else
    match a / 0x100000 with
    | 1 => Reg.block10
    | 2 => Reg.block20
    | 3 => Reg.block30
    | 4 => Reg.block40
    | 5 => Reg.block50
    | 6 => Reg.block60
    | 7 => Reg.block70
    | 8 => Reg.block80
    | 9 => Reg.block90
    | 10 => Reg.blockA0
    | 11 => Reg.blockB0
    | 12 => Reg.blockC0
    | 13 => Reg.blockD0
    | 14 => Reg.blockE0
    | 15 => Reg.blockF0
    | _ => []

/-- The address of replica (i, j) of a register (R522). -/
def Reg.addr (r : Reg) (i j : Nat) : Nat := r.row.base + r.row.s1 * i + r.row.s2 * j

/-- The indices of the replica of `r` that lies at address `a`, if any. -/
def Reg.index? (r : Reg) (a : Nat) : Option (Nat × Nat) :=
  let w := r.row
  if a < w.base then none
  else
    let o := a - w.base
    let i := if w.s1 = 0 then 0 else o / w.s1
    let o1 := o - w.s1 * i
    let j := if w.s2 = 0 then 0 else o1 / w.s2
    if o1 - w.s2 * j = 0 ∧ i < w.n1 ∧ j < w.n2 then some (i, j) else none

/-- The first register of a list that has a replica at address `a`. -/
def Reg.findIn (a : Nat) : List Reg → Option (Reg × Nat × Nat)
  | [] => none
  | r :: t =>
    match r.index? a with
    | some (i, j) => some (r, i, j)
    | none => Reg.findIn a t

/-- The register at address `a`, with its indices; none at a reserved offset (R522). -/
def Reg.at? (a : Nat) : Option (Reg × Nat × Nat) := Reg.findIn a (Reg.blockOf a)

/-- R167, R193: reset reservation of holding-area blocks by port. -/
def holdRsvReset (n : Nat) : Nat :=
  if n < 4 then 144 else if n < 12 then 64 else if n < 20 then 36 else if n < 22 then 144 else if n = 22 then 192 else 128

/-- The reset value of replica (i, j): the row's, but for the registers whose reset value depends on the index (R193, R292, R348, R382). -/
def Reg.resetAt (r : Reg) (i _j : Nat) : Word :=
  match r with
  | .BUF_HOLD_RSV => BitVec.ofNat 32 (holdRsvReset i)
  | .HIF_RX_MAP => BitVec.ofNat 32 i
  | .TIME_DOM_CFG => BitVec.ofNat 32 (0xF6030000 + 0x100 * i)
  | .GW_CAN_XBT => if i < 2 then r.row.reset else 0
  | _ => r.row.reset

/-- The registers that survive a D-die reset: the keep domain, the always-on part and GLB_LOCK (R489, R510, R524). -/
def Reg.keptAddr (a : Nat) : Bool :=
  decide (a = 0x4) || decide (0x10100 ≤ a ∧ a ≤ 0x10104) || decide (0x20100 ≤ a ∧ a < 0x22000)

end Sys2Proof.Machine
end

