-- ==== Sys2Proof/Machine/SMap.lean ====
section
/-! DEFINITION. Reading and writing the sparse maps in which State holds tables, registers, counters and memories. -/

namespace Sys2Proof

/-- The value listed at key `k`, if any. -/
def SMap.find? {α : Type} : SMap α → Nat → Option α
  | [], _ => none
  | (k', v) :: t, k => if k = k' then some v else if k < k' then none else SMap.find? t k

/-- The value at key `k`: the listed one, or the default `d` that every unlisted key reads as. -/
def SMap.get {α : Type} (d : α) (m : SMap α) (k : Nat) : α := (SMap.find? m k).getD d

/-- The map with `v` listed at `k`. -/
def SMap.put {α : Type} : SMap α → Nat → α → SMap α
  | [], k, v => [(k, v)]
  | (k', v') :: t, k, v =>
    if k = k' then (k, v) :: t
    else if k < k' then (k, v) :: (k', v') :: t
    else (k', v') :: SMap.put t k v

/-- The map with nothing listed at `k`. -/
def SMap.erase {α : Type} : SMap α → Nat → SMap α
  | [], _ => []
  | (k', v') :: t, k =>
    if k = k' then t.dropWhile (fun e => decide (e.1 ≤ k))
    else if k < k' then (k', v') :: t
    else (k', v') :: SMap.erase t k

/-- Writing `v` at `k`, keeping the canonical form: a value equal to the default is not listed. -/
def SMap.set {α : Type} [DecidableEq α] (d : α) (m : SMap α) (k : Nat) (v : α) : SMap α :=
  if v = d then SMap.erase m k else SMap.put m k v

/-- Applying `f` to the value at `k`. -/
def SMap.upd {α : Type} [DecidableEq α] (d : α) (m : SMap α) (k : Nat) (f : α → α) : SMap α :=
  SMap.set d m k (f (SMap.get d m k))

/-- Every listed key lies above `lo`, and the keys rise strictly. -/
def SMap.rising {α : Type} : Option Nat → SMap α → Bool
  | _, [] => true
  | lo, (k, _) :: t => (match lo with | none => true | some l => decide (l < k)) && SMap.rising (some k) t

/-- The canonical form: keys strictly rising, no entry equal to the default. -/
def SMap.wf {α : Type} [DecidableEq α] (d : α) (m : SMap α) : Bool :=
  SMap.rising none m && m.all (fun p => decide (p.2 ≠ d))

/-- The entries of `over` written on top of `base`. -/
def SMap.merge {α : Type} (base : SMap α) : SMap α → SMap α
  | [] => base
  | (k, v) :: t => SMap.merge (SMap.put base k v) t

/-- The listed entries whose key and value pass `p`. -/
def SMap.keep {α : Type} (p : Nat → Bool) (m : SMap α) : SMap α := m.filter (fun e => p e.1)

/-- Applying `f` to every listed value; one that becomes the default is no longer listed. -/
def SMap.mapv {α : Type} [DecidableEq α] (d : α) (f : α → α) : SMap α → SMap α
  | [] => []
  | (k, v) :: t => if f v = d then SMap.mapv d f t else (k, f v) :: SMap.mapv d f t

/-- The keys listed. -/
def SMap.keys {α : Type} (m : SMap α) : List Nat := m.map (fun e => e.1)

end Sys2Proof
end

