-- ==== Sys2Proof/Machine/State.lean ====
section
/-! DEFINITION. The state of the device: every register, table, queue, buffer, counter, mode and pin the manual names,
as plain data. Registers live in one map keyed by BAR0 address; everything else has a structure per block. -/

namespace Sys2Proof.Machine

/-- No condition of the device stops the block: every error sets a flag, a counter, a record or enters the safe state
(R29, R254). There is therefore no fault. -/
inductive Fault where
deriving DecidableEq, Repr

/-- Why a command has no answer. -/
inductive Refusal where
  /-- Raised by Dispatch for a command whose meaning is not written yet. Safe: the model stops. -/
  | notModelled (mnemonic : String)
deriving DecidableEq, Repr

/-! ### Frames and copies (chapters 03 to 07) -/

/-- What the decision has settled about a frame so far (R75 to R80, R134 to R137). -/
structure Dec where
  vid : Nat            -- VID resolved under R76
  outVid : Nat         -- VID on which the frame leaves (R78)
  fid : Nat            -- filtering identifier of the VLAN entry
  pcp : Nat            -- PCP of R76
  stream : Option Nat  -- stream handle (R80)
  fresh : Nat          -- FRESH_US
  picture : Bool       -- PICTURE
  seq : Option Nat     -- sequence number generated or recovered (R112, R113)
  dropTag : Bool       -- a received R-tag is removed (R113) or replaced (R112)
  push : Nat           -- RTAG_PUSH
  route : Option (List Word) -- the route entry of a frame routed with ACTION = 0 (R118)
  dest : Nat           -- destination ports still to be judged or allowed
  single : Bool        -- the destination chosen by the tables is a single port (R145, R146)
  tc : Nat             -- traffic class (R79)
  policer : Option Nat -- flow meter (R195)
  gap : Bool           -- recovery revealed a gap with LOST_DROP = 1 (R221)
  szone : Nat          -- source zone (R131)
  forms : List (Nat × List Byte) := [] -- stored form of the copy for each destination port, as decided (R21, R80)
  denied : List Nat := [] -- zones denied so far (R137)
deriving DecidableEq, Repr

/-- One hook request of a held frame (R156). -/
structure HookReq where
  eng : Nat                       -- engine K8 + eng
  frame : Nat                     -- held frame
  zones : List (Nat × Nat × Nat)  -- zone, rule index, HOOK_ARG
  rules : List (List Word)        -- the rules of these zones, as they decided (R164)
  queued : Beat                   -- beat in which it was queued (R158)
  epoch : Nat                     -- rule-bank epoch under which it was made (R162)
deriving DecidableEq, Repr

/-- A frame in the ingress holding area (R167, R168). -/
structure Held where
  id : Nat
  port : Nat
  src : FrameSrc
  bytes : List Byte        -- without FCS (R167)
  wire : Nat               -- length under R44 as received or presented (R195)
  stamp : Option Wide      -- receive stamp of R51
  arrive : Wide            -- counter value when the frame was whole (R226)
  tsReq : Bool             -- marked by its originator for a transmit stamp (R51)
  blocks : Nat             -- holding-area blocks held
  key : Option (List Byte) -- the key vector, once parsed (R66)
  bank : Nat               -- graph epoch under which it was parsed (R72)
  video : Option Nat       -- end of the header of the node that set PRESENT.VIDEO (R422)
  marks : List (Nat × Nat) -- PRESENT bit and first byte of each node that set one, last first (R63, R115)
  dec : Option Dec         -- set once decided up to Mastiff
  waits : Nat              -- hook requests not yet answered (R137)
  track : Option Nat       -- tracking record (R181)
  admitted : Bool          -- its decision was accepted and its copies were judged
  direct : Option Nat      -- port to which Shepherd directs a link-local frame of its own (R485, log entry 74)
  denied : List Nat        -- zones whose denial an earlier decision of the frame has counted (R137)
  old : List (Nat × Option Word) -- configuration registers under which a waiting decision began, where a commit changed them (R21)
deriving DecidableEq, Repr

/-- How far a copy has come (R172, R173). -/
inductive Phase where
  | pending   -- admitted, writes not finished
  | written   -- wholly in the cell memory, not yet linked
  | linked    -- on its queue's list
  | sending   -- on the wire
  | tapOnly   -- sent or dropped by the output stage, still to be read by a tap
  | lost      -- unreachable after a lost list word; its cells wait for the audit (R191, R192)
deriving DecidableEq, Repr

/-- One admitted copy with its descriptor (R170, R171). -/
structure Copy where
  id : Nat
  frame : Nat              -- holding-area frame it came from
  inPort : Nat
  src : FrameSrc
  port : Nat
  tc : Nat
  bytes : List Byte        -- stored form of R170, without copy header and FCS
  len : Nat                -- S
  desc : Nat               -- descriptor index (order not fixed by R173: free value)
  cell : Nat               -- first cell (free value)
  picture : Bool
  eop : Bool
  tap : List Nat           -- taps that still have to read it (R173, R409)
  yellow : Bool
  stream : Option Nat
  fresh : Nat
  track : Option Nat
  phase : Phase
  enq : Wide               -- counter at linking (R172)
  pic : Option Nat         -- picture number given by the tracker (R217)
  first : Bool             -- first admitted copy of its frame: passes the snoopers (R182)
  tsReq : Bool
  rxStamp : Option Wide
  arrive : Wide            -- of its frame
  seq : Nat                -- decision order (R172)
deriving DecidableEq, Repr

/-- One of the 192 queues (R13): linked copies, accounts and scheduler state. -/
structure Queue where
  list : List Nat := []     -- linked copies, head first
  deficit : Nat := 0        -- R211
  newTurn : Bool := false   -- R211
  credit : Int := 0         -- R212, in 1/256 byte times 2500
  creditAt : Wide := 0      -- counter value at which the credit was last brought up to date
  recOff : Bool := false    -- a STALE record was placed for it in this beat (R223)
deriving DecidableEq, Repr

/-- One record of the picture tracker (R216 to R219). -/
structure PicRec where
  num : Nat                  -- picture number
  drops : List (Nat × Nat)   -- pictures being dropped, at most two: number, and `seq` of the first lost copy
  last : Beat                -- beat of the last judged copy
deriving DecidableEq, Repr

/-- One tracking record (R181). -/
structure Track where
  owner : FrameSrc
  left : Nat               -- copies not yet resolved
  lost : Nat               -- mask of lost copies
  cause : Option (Nat × Nat) -- port and completion cause of the first loss: 0x0502 = check 2, 0x0620 = drop cause 32, and so on
  safe : Bool              -- a copy was lost to the safe state or the frame to a switchover
  down : Bool              -- a copy was lost because its port was down or going down
  stamp : Option (Nat × Wide) -- lowest-numbered port that sent a stamped copy, and its stamp (R359)
deriving DecidableEq, Repr

/-- State of a port P0 to P21 under R183 to R187. -/
inductive HoldState where
  | normal
  | held (d : Beat)
  | down
deriving DecidableEq, Repr

/-- Training in progress on a B or C port (R37). -/
inductive Train where
  | none | negotiate | refresh | cold
deriving DecidableEq, Repr

/-- A gate list with its control values, as committed (R206). -/
structure GateList where
  en : Bool := false
  len : Nat := 1
  cycle : Nat := 1
  base : Beat := 0
  ents : List (Nat × Nat) := []   -- GATE_STATES and IVL of entries 0 to LEN − 1
deriving DecidableEq, Repr

/-- A port: applied settings, link history, hold state, transmitter and gates. -/
structure PortSt where
  started : Bool := false        -- the PHY and MAC run with the applied settings (R33)
  speed : Nat := 0               -- applied PORT_CTRL.SPEED
  role : Nat := 0                -- applied ROLE
  anEn : Bool := false           -- applied AN_EN
  hMode : Bool := false          -- applied H_MODE
  loopback : Nat := 0            -- applied LOOPBACK
  polAuto : Bool := false        -- applied POL_AUTO
  train : Train := .none
  trainAt : Wide := 0            -- counter value at which the training began (R37)
  prevSpeed : Nat := 0           -- speed of the previous link, 0 = none (PORT_LINK_EVENT.SPEED_CHANGE)
  upSince : Beat := 0            -- beat at which the link came up (R38)
  stored : Bool := false         -- taps stored since this link-up (R38)
  attempts : Nat := 0            -- colliding attempts of the frame being sent (R31)
  hold : HoldState := .normal
  flushDue : Bool := false       -- R187: becomes DOWN at the next boundary
  cur : Option Nat := none       -- copy on the wire
  curWire : List Byte := []       -- its form on the wire, without FCS (R56, R391)
  curAt : Wide := 0              -- counter value at its start
  busyTo : Wide := 0             -- counter value at which the MAC can take a new copy (end of the gap)
  drr : List Nat := []           -- deficit round robin list (R211)
  gate : GateList := {}          -- list in force
  gatePend : Option GateList := none -- committed list waiting to take over (R208)
  cycleAt : Beat := 0            -- beat at which the running cycle began
  gateEnt : Nat := 0             -- entry in operation
  pdRecs : Nat := 0              -- causes of PARSE_DROP already recorded in this beat (R70)
deriving DecidableEq, Repr

/-! ### Decision planes (chapters 04, 05, 08) -/

/-- Plane states (R231). -/
inductive PlaneMode where
  | active | standby | selftest | resync | failed
deriving DecidableEq, Repr

/-- A queued learn request (R90). -/
structure Learn where
  fid : Nat
  mac : Nat
  port : Nat
deriving DecidableEq, Repr

/-- A queued refresh (R91, R96): slot, key and the tick to write. -/
structure Refresh where
  slot : Nat
  fid : Nat
  mac : Nat
  tick : Nat
deriving DecidableEq, Repr

/-- A conditional delete (R96) issued by the FDB sweeper: slot, key, and the TS or GEN read. -/
structure CondDel where
  slot : Nat
  key : Nat
  byGen : Bool
  val : Nat
deriving DecidableEq, Repr

/-- A queued connection update (R149). -/
structure CtUpd where
  slot : Nat
  key : Nat
  tick : Nat
  st : Nat
  reply : Bool
deriving DecidableEq, Repr

/-- The memories of a plane: the tables of chapters 04, 05 and 09, the stream directory, the meters, the generations
(ports 0 to 23, connections 24), the seeds (0 FDB, 1 FDB previous, 2 stream, 3 route, 4 migration state) and LAST_ACC. -/
inductive Space where
  | fdb | stream | vlan | group | route | rule0 | rule1 | conn | filter | dir | meter | gen | seed | lastAcc
deriving DecidableEq, Repr

/-- One decision plane: its tables, queues, sweepers and health (R127, R163, R231). -/
structure Plane where
  mode : PlaneMode := .selftest
  claim : Nat := 0
  mem : SMap (List Word) := []      -- every table entry, keyed by space and index; an unlisted entry is all zeros
  learnQ : List Learn := []         -- 256 entries
  refreshQ : List Refresh := []     -- 64 entries
  delQ : List CondDel := []         -- conditional deletes of the FDB sweeper
  ctDelQ : List CondDel := []       -- conditional deletes of the connection sweeper
  createQ : List (List Word) := []  -- 128 connection entries waiting to be placed (R147)
  updateQ : List CtUpd := []        -- 64 entries
  fdbCur : Nat := 0                 -- FDB sweeper position: bucket, then stash group (R94)
  ctCur : Nat := 0                  -- connection sweeper position
  genOut : SMap Nat := []           -- outstanding generations per port (24 ports; 24 = connection table): count (R100)
  genOld : SMap Nat := []           -- of those, outstanding since before the running pass started
  flushWait : SMap Bool := []       -- deferred flush per port (24 = connection table)
  blocked : List (Nat × Nat) := []  -- FID and MAC, 16 entries (R101)
  strSweep : Option Nat := none     -- stream sweeper position while it runs (R110)
  strBase : Beat := 0               -- beat of the last sweep start
  strLast : Option Beat := none     -- beat whose visits have been made
  lagging : Bool := false           -- R243
  stOk : Bool := false              -- last full self-test pass passed (R232)
  sliceBad : Bool := false          -- a slice failed since
  failSeg : Nat := 0
  passes : Nat := 0
  slice : Nat := 0                  -- slices of the running pass done
  ceCur : Nat := 0                  -- correctable errors in the current health window (R248)
  cePrev : Nat := 0
  renewOk : Bool := true            -- watchdog and canary passed for the beat just ended (R233)
  giveUps : List Beat := []         -- beats of give-ups in the current aging tick (R240)
  eccBeat : Option Beat := none     -- beat of the last uncorrectable error (R254, cause 1)
deriving DecidableEq, Repr

/-- R241: an entry changed in the running beat, which makes one record at its end: its key, the record's class and size, whether a
table command changed it, and the other entries that the same record carries. -/
structure Dirty where
  key : Nat
  exact : Bool
  bytes : Nat
  cmd : Bool
  parts : List Nat
deriving DecidableEq, Repr

/-- A record of the state copy (R241): the entries that it carries with their values, its class, and its size in bytes. -/
structure CopyRec where
  parts : List (Nat × List Word)
  exact : Bool
  bytes : Nat
  beat : Beat
  cmd : Bool      -- produced by the table command in progress (R125)
deriving DecidableEq, Repr

/-- Why and how control is passing from one plane to the other (R249, R252). -/
inductive Switch where
  | none
  | gap (b1 : Bool)              -- unplanned; true once b1 has passed
  | planned (act : Bool)         -- the active plane has written 0x00 at s; true for ACTIVATE with new microcode
deriving DecidableEq, Repr

/-- Sequence mirror fields of one stream handle (R245). -/
structure Mirror where
  genSeq : Nat := 0
  recSeq : Nat := 0
  history : Nat := 0
  lastAcc : Nat := 0
  takeAny : Bool := false
  blocked : Bool := false
deriving DecidableEq, Repr

/-- A table command that still holds BUSY, or a ring command not yet completed (R125). -/
structure TblCmd where
  src : CmdSrc
  beat : Beat          -- beat in whose slice it ran
  code : Nat
  undo : List (Nat × List Word) -- entries it changed, with their values before (R253: not applied at a switchover)
  pos : Nat := 0       -- record of a batch
  moves : Option Nat := none -- results of a command of TBL_CMD, shown when it completes
  index : Option Nat := none
  data : Option (List Word) := none
  gone : Bool := false -- its ring was reset with the host interface (R352)
deriving DecidableEq, Repr

/-- The twin arbiter and the state copy between the planes (chapter 08). -/
structure Twin where
  a : Plane := {}
  b : Plane := {}
  accepted : Option Bool := none       -- the accepted plane: false = A, true = B (R234)
  tie : Bool := false
  noclaim : Nat := 0
  swapReq : Bool := false              -- SWAP accepted, waiting for the boundary (R252)
  swapAct : Bool := false              -- the switchover belongs to an ACTIVATE
  swapTries : Nat := 0                 -- boundaries at which ACTIVATE's switchover found no eligible standby
  switch : Switch := .none
  dirty : List Dirty := []             -- entries changed in this beat
  exactQ : List CopyRec := []          -- 64 KiB
  lazyQ : List CopyRec := []           -- 32 KiB
  windowDone : Bool := false           -- this beat's copy window has run
  lastWords : Nat := 0                 -- exact words sent in the last window
  ckpt : List (Nat × List Word) := []  -- policer checkpoint of the boundary that began this beat (R20 step 3, R200)
  refilled : List (Nat × List Word) := [] -- the checkpoint with the refill of the same boundary (R196, R200)
  metered : List Nat := []             -- meters used in this beat
  mirror : SMap Mirror := []           -- sequence mirror, 4,096 handles
  fresh : SMap (List Word) := []       -- freshness mirror: words 5 to 8 per filter entry (R289)
  cmdWait : Bool := false              -- TBL_CMD holds a command for the next beat's slice (R125)
  cmds : List TblCmd := []             -- commands not yet complete
  wrCmds : Nat := 0                    -- commands started in this beat's slice
  wrCycles : SMap Nat := []            -- command cycles used in this beat's slice, by table (R91, R92)
  sliceEnd : Bool := false             -- the slice of this beat has ended (R91)
  safe : Bool := false                 -- the safe state
  cause : Nat := 0
  result : Nat := 0
  leaving : Bool := false              -- a leave is in progress (R257)
  lastMem : SMap (List Word) := []     -- memories of the plane last ACTIVE, for the committed set of a leave (R257)
deriving DecidableEq, Repr

/-! ### Time unit (chapter 11) -/

/-- A time domain (R326): anchor counter value, anchor time in 2^-16 ns, rate in 2^-41. -/
structure Domain where
  ca : Wide := 0
  ta : Int := 0
  rate : Int := 0
  seq : Nat := 0          -- APPLY_SEQ
  locked : Bool := false
  gm : Bool := false      -- the device is the domain's grandmaster (R334)
  syncAt : Wide := 0      -- counter value of the last sync information (R334)
  syncSeq : Nat := 0      -- sequenceId of Shepherd's next Sync message
deriving DecidableEq, Repr

/-- A TRIG channel (R342 to R345). -/
structure Trig where
  armed : Bool := false
  k : Nat := 0            -- next pulse
  high : Bool := false    -- a pulse is in progress
  pulses : Nat := 0
  skips : Nat := 0
  done : Bool := false    -- ONE_SHOT pulse produced
deriving DecidableEq, Repr

/-- A CAP input's FIFO (R346): stamps with their edge, oldest first, and the latched head. -/
structure Cap where
  fifo : List (Wide × Bool) := []
  latch : Option Wide := none  -- head entry latched by a read of TIME_CAP_FIFO_LO
deriving DecidableEq, Repr

/-- A latched time snapshot (R331). -/
structure TimeSnap where
  cnt : Wide := 0
  beat : Beat := 0
  boff : Nat := 0
  dom : List Wide := [0, 0, 0, 0]
  valid : Bool := false
  seq : Nat := 0
deriving DecidableEq, Repr

/-- The time unit: counter, beat generator, domains, TRIG and CAP (R325 to R348). -/
structure TimeUnit where
  cnt : Wide := 0              -- free-running counter, steps of 3.2 ns
  beat : Beat := 0
  beatAt : Wide := 0           -- counter value at the start of the beat
  err : Int := 0               -- E of R336, in 2^-16/10 ns
  resync : Bool := false       -- RESYNC_PEND
  step : Int := 0              -- step that caused the pending resynchronisation, ns
  dom : SMap Domain := []
  trig : SMap Trig := []
  cap : SMap Cap := []
  snap : TimeSnap := {}
  cntHi : Word := 0            -- latched TIME_CNT_HI (R330)
  jumped : Option Beat := none -- at the boundary of a resynchronisation that moved the beat forward: the beat that ended (R340)
deriving DecidableEq, Repr

/-! ### Legacy gateway (chapter 09) -/

/-- A received bus frame waiting in a receive FIFO, with the counter value at acceptance (AGE, R264). -/
structure RxEnt where
  frame : BusFrame
  at_ : Wide
deriving DecidableEq, Repr

/-- A frame in a CAN transmit memory (R272, R273). -/
structure TxEnt where
  frame : BusFrame
  beat : Beat          -- beat at which it was written
deriving DecidableEq, Repr

/-- A CAN controller with its transceiver (R260 to R276). -/
structure Can where
  on : Bool := false
  ctrl : Word := 0          -- applied GW_CAN_CTRL (R292)
  maxAge : Nat := 0         -- applied GW_CAN_TXAGE.MAXAGE
  proto : Nat := 1          -- applied PROTO
  nbt : Word := 0           -- applied timing
  dbt : Word := 0
  xbt : Word := 0
  fast : Bool := false      -- applied FAST
  rx : List RxEnt := []
  tx : List TxEnt := []
  cfgErr : Bool := false
  busoff : Bool := false
  recovering : Bool := false
  offAt : Wide := 0         -- counter value at bus-off entry (BO_HOLD)
  passive : Bool := false
  tec : Nat := 0
  recv : Nat := 0
  txdHold : Bool := false   -- transmitter held recessive (R276)
  hot : Bool := false       -- thermal shutdown (R530)
deriving DecidableEq, Repr

/-- A LIN channel (R277 to R279). -/
structure Lin where
  on : Bool := false
  ctrl : Word := 0          -- applied GW_LIN_CTRL
  baud : Word := 0          -- applied GW_LIN_BAUD
  rx : List RxEnt := []
  pub : SMap (Option BusFrame) := [] -- publish buffers written since EN rose
  armed : Bool := false     -- schedule starts at the next boundary
  active : Bool := false
  ent : Nat := 0
  slotEnd : Beat := 0
  header : Option Nat := none -- identifier of the header awaiting a response
  errBeat : Bool := false   -- a LIN_ERR record was placed in this beat
  hot : Bool := false
deriving DecidableEq, Repr

/-- The assembler of a tunnel (R280 to R283). -/
structure Tun where
  msgs : List (List Byte) := [] -- messages of the open container
  first : Beat := 0             -- beat in which its first message arrived
  txSeq : Nat := 0
  rxSeq : Nat := 0
  rxAny : Bool := false         -- a container has been accepted
deriving DecidableEq, Repr

/-- A container in the tunnel receiver's buffer (R284, R285): tunnel, ingress port, messages still to take. -/
structure RxCont where
  tun : Nat
  port : Nat
  size : Nat
  body : List Byte     -- ACF messages not yet taken
deriving DecidableEq, Repr

/-- The gateway outside the engines (chapter 09). -/
structure Gateway where
  can : SMap Can := []
  lin : SMap Lin := []
  tun : SMap Tun := []
  rxBuf : List RxCont := []           -- 32 KiB
  closed : List (List Byte) := []     -- closed containers waiting to enter P23 (R283, R26)
  renewing : Bool := false            -- the increment of counter 31 is running (R288)
  renewed : Bool := false             -- it has completed; TX_FV returns to 0 at the next boundary
  authRec : Nat := 0                  -- sources with an AUTH_FAIL record in this beat (R291)
  fvSpent : List Nat := []            -- entries whose TX_FV 0xFFFF_FFFF has been used (R288)
deriving DecidableEq, Repr

/-! ### Kelpie engines (chapter 10) -/

/-- An image accepted for an engine (R316): header facts, code and initial data. -/
structure Image where
  shipped : Bool := false  -- part of the firmware image: its code is not in the manual, its behaviour is (R265, R270, R456)
  carry : Bool
  entry : List Nat      -- entry word of class 0 to 7
  wcet : List Nat
  maxev : List Nat
  crc : Word
  code : SMap Word      -- program memory
  dat : SMap Byte       -- initial data memory
deriving DecidableEq, Repr

/-- What an engine is running (R296). -/
inductive Running where
  | idle | main | event (cls : Nat)
deriving DecidableEq, Repr

/-- An item in an engine's queue or event window (R298, R304): its bytes, the counter value of acceptance for AGE, the
ingress port of its tunnel frame, and the hook request it belongs to. -/
structure Item where
  bytes : List Byte
  src : Nat := 0
  port : Nat := 0
  verified : Bool := false
  hook : Option HookReq := none
deriving DecidableEq, Repr

/-- A Kelpie engine (R293 to R324). -/
structure Engine where
  image : Option Image := none
  second : Option Image := none       -- image in the second banks, accepted and pending
  dat : SMap Byte := []               -- data memory, 8 KiB
  regM : SMap Word := []              -- register bank M
  regE : SMap Word := []              -- register bank E
  pcM : Nat := 0                      -- where the main routine stands
  pcE : Nat := 0
  callM : List Nat := []
  callE : List Nat := []
  loopM : List (Nat × Nat × Nat) := [] -- first word, END, passes left
  loopE : List (Nat × Nat × Nat) := []
  run : Running := .idle
  mainHalted : Bool := true
  used : Nat := 0                     -- cycles of the run window spent in routines (R297)
  idle : Nat := 0                     -- cycles of the run window that have passed without a routine running
  usedMain : Nat := 0
  admitted : SMap Nat := []           -- events admitted per class in this run
  kp : Nat := 0                       -- permit register (R307)
  kv : Bool := false
  answered : Bool := false            -- a VRD has answered (R310)
  item : Option Item := none
  handoff : List Item := []           -- 64 entries
  capture : List Item := []
  mailbox : List Item := []
  bugle : List Item := []
  hookPart : List HookReq := []       -- hook queue (R156), 64 entries
  hookOpen : List HookReq := []       -- requests taken by a routine and not yet answered (R310)
  ended : Bool := false               -- the run of this beat has ended (R295)
  en : Bool := true                   -- KLP_ENG_CTRL.EN as of the last boundary (R323)
  faulted : Bool := false
  halted : Bool := false              -- HALTED in the safe state (R323)
  faults : List Beat := []            -- faults in the current 2^20-beat window (R322)
  restart : Bool := false             -- RESTART written
  dmemBad : Bool := false             -- the fault was DMEM_ECC
  stuck : Bool := false               -- a fourth fault within 2^20 beats has left it FAULTED (R322)
  corrected : Nat := 0                -- corrected ECC errors of its memories (R320)
deriving DecidableEq, Repr

/-- The loader's states (R318). -/
inductive LoadState where
  | idle | fetch | check | pending | done | refused | late | cancelled
deriving DecidableEq, Repr

/-- The loader (R317 to R319). -/
structure Loader where
  state : LoadState := .idle
  eng : Nat := 0
  bytes : List Byte := []     -- image fetched into the second banks
  atBeat : Bool := false
  beat : Beat := 0
  slabBad : Bool := false     -- a slab was not owned by the device
deriving DecidableEq, Repr

/-! ### Host interface and windows (chapter 12) -/

/-- A descriptor fetched from a ring, with what is known of its outcome (R357 to R366). -/
structure Desc where
  idx : Nat
  words : List Word
  state : Nat := 0            -- 0 = fetched; 4 = its data read is outstanding, with room reserved (R358); 1 = a command still running;
                              -- 2 = in the switch, or executed; 3 = resolved
  track : Nat := 0            -- in state 4: its tracking record
  status : Nat := 0
  detail : Nat := 0
  lost : Nat := 0
  stamp : Option (Nat × Wide) := none
  res6 : Word := 0            -- command results, words 6 and 7
  res7 : Word := 0
  data : List Word := []      -- data block written back
  recs : List (Nat × List Word) := [] -- batch records with their results: host address and words (R365)
  slabs : List (Nat × Nat) := []      -- slabs of a batch with their GEN
deriving DecidableEq, Repr

/-- A ring (R353 to R368). -/
structure Ring where
  head : Nat := 0
  known : Nat := 0
  fetched : List Desc := []   -- in index order
  reset : Bool := false       -- CMD.RESET written
  stop : Bool := false        -- the ring has stopped for its reset and completes what it holds
  asked : Nat := 0            -- descriptors asked for in the outstanding descriptor read of a TX ring; 0 = none is outstanding (R358)
  written : Nat := 0          -- event records written since enable
  evTail : Nat := 0           -- index of the next event record (event rings)
deriving DecidableEq, Repr

/-- A vector (R369). -/
structure Vec where
  pending : Nat := 0
  last : Beat := 0
  first : Beat := 0
deriving DecidableEq, Repr

/-- An event record (R516). -/
structure EvRec where
  code : Nat
  src : Nat
  seq : Nat
  beat : Nat
  detail : Nat
  args : List Word
deriving DecidableEq, Repr

/-- An outstanding or waiting window request (R375). -/
structure WinReq where
  seq : Nat
  write : Bool
  addr : Nat
  len : Nat
  payload : List Byte
  sent : Wide         -- counter value at its sending
  tok : Nat := 0      -- token of its frame
  want : Nat × Nat := (0, 0) -- of a read: offset in the window and length of what the host asked for
deriving DecidableEq, Repr

/-- A read through a LOCAL window of which one DW is a held WIN_FENCE read (R373, R378): the reading window, the access, the bytes of
the DWs before and after it, and the first DW that failed with its cause. -/
structure LocalHold where
  w : Nat
  off : Nat
  len : Nat
  swap : Bool
  pre : List Byte
  post : List Byte
  fail : Option (Nat × Nat)
deriving DecidableEq, Repr

/-- A held WIN_FENCE read (R378): the SEQ that it waits for, and the LOCAL read of which it is a part. -/
structure Fence where
  seq : Nat
  loc : Option LocalHold := none
deriving DecidableEq, Repr

/-- A BAR4 window (R373 to R379). -/
structure Win where
  seq : Nat := 0
  out : List WinReq := []     -- outstanding, at most 16
  wait : List WinReq := []
  fails : Nat := 0
  fence : List Fence := []    -- held reads of WIN_FENCE, oldest first (R378)
deriving DecidableEq, Repr

/-- A frame of Shepherd's own that waits to enter P23 (R26): the accept entry of the request slot that an Ezsyn answer holds (R375; 8 = none),
its bytes, the port to which a link-local frame is directed, and whether it is marked for a transmit stamp (R51). -/
structure ShepTx where
  entry : Nat
  bytes : List Byte
  direct : Option Nat := none
  tsReq : Bool := false
deriving DecidableEq, Repr

/-- The host interface (chapter 12). -/
structure HostIf where
  bme : Bool := false
  poll : Bool := false         -- a doorbell poll is outstanding
  pollAgain : Bool := false    -- KICK.POLL while one is outstanding
  ring : SMap Ring := []       -- 0–31 TX, 32–63 RX, 64–65 command, 66–69 event
  vec : SMap Vec := []
  pba : Nat := 0
  evNew : List EvRec := []     -- records produced in this beat
  evWait : List EvRec := []    -- 512-record buffer of records whose ring was full
  evSeq : Nat := 0             -- device-wide record number
  reclaim : List (Nat × Nat) := [] -- requested reclaims: first, count
  slabs : SMap Nat := []       -- slabs at 01 in use by a consumer: GEN + 1
  flags : SMap Byte := []      -- the flags of the exchange window in host memory, as the device last read or wrote each (R371)
  perst : Bool := false        -- PERST_N asserted
  rr : Nat := 0                -- last TX ring served (round robin of R358)
  win : SMap Win := []
  pwe : List (List Word) := [] -- posted-write error log, oldest first
  answers : List ShepTx := []  -- frames of Shepherd's that wait to enter P23 (R26)
deriving DecidableEq, Repr

/-! ### Cipher engine and Kennel (chapter 13) -/

/-- Slot states (R398). -/
inductive SlotState where
  | empty | stored | loading | ready | unusable
deriving DecidableEq, Repr

/-- A key record: header fields of its blob and the wrapped key bytes (R403, R404). -/
structure KeyRec where
  klen : Bool := false       -- true = 256 bits
  use : Nat := 0
  engine : Bool := false
  exportable : Bool := false
  preload : Bool := false
  keyId : Nat := 0
  version : Word := 0
  wrapped : List Byte := []
deriving DecidableEq, Repr

/-- A Kennel slot (R397 to R402). -/
structure Slot where
  st : SlotState := .empty
  attr : KeyRec := {}                -- copy 0: attributes, key and SLOT_CHK (R400)
  key : List Byte := []
  chk : Word := 0
  attr1 : KeyRec := {}               -- copy 1
  key1 : List Byte := []
  chk1 : Word := 0
  swapAt : Option Beat := none       -- beat at which the staged replacement takes the slot (R402)
  next : Option (KeyRec × List Byte) := none -- staged replacement; none with swapAt set = erasure
deriving DecidableEq, Repr

/-- A key-store copy (R404 to R406). -/
structure Store where
  magic : Word := 0xFFFFFFFF
  seq : Nat := 0xFFFFFFFF
  mask : Wide := 0xFFFFFFFFFFFFFFFF  -- presence mask
  recs : SMap KeyRec := []           -- by slot; an absent record reads all 0xFF
  tag : List Byte := List.replicate 16 0xFF -- SEAL
deriving DecidableEq, Repr

/-- A key-store update in progress (R406). -/
structure StoreUpd where
  slot : Nat
  new : Option KeyRec                -- none erases
  key : List Byte
  owner : Nat × Nat                  -- command ring and descriptor index; ring 2 = none left
  at_ : Option Beat                  -- named swap beat (R402)
deriving DecidableEq, Repr

/-- The cipher engine and the Kennel. -/
structure Crypto where
  slot : SMap Slot := []
  loadQ : List Nat := []
  storeA : Store := {}
  storeB : Store := {}
  seq : Nat := 0                     -- SEQ of the store in force
  copy : Bool := false               -- copy in force: false = A
  ok : Bool := false                 -- STORE_OK: the copy in force was found good
  recs : SMap KeyRec := []           -- its records
  upd : List StoreUpd := []          -- updates: the one in progress, then those that wait (R406)
  coreBad : Nat := 0                 -- mask of cores out of service
  firstOut : Option Nat := none      -- the core that left service first (R389)
  turn : Nat := 0                    -- whose turn it is among the cores that share displaced work (R389)
  scrub : Nat := 0                   -- slot the scrubber checks next (R401)
deriving DecidableEq, Repr

/-! ### Retriever and check snoopers (chapter 14) -/

/-- Retriever states. -/
inductive RecMode where
  | idle | recording | post | frozen
deriving DecidableEq, Repr

/-- A sector being filled or waiting to be written (R412 to R414). -/
structure Sector where
  body : List Byte := []        -- records, after the 32-byte header
  first : Wide := 0             -- TIME of the first record
  records : Nat := 0
  opened : Beat := 0
  trig : Bool := false
  cont : Bool := false
  last : Bool := false
deriving DecidableEq, Repr

/-- What a tap has to record next (R410, R411): a linked copy, or a run of skipped copies of one stream with the time of
the first. -/
inductive TapItem where
  | copy (k : Nat)
  | gap (stream count : Nat) (picture eop : Bool) (port tc : Nat) (at_ : Wide)
deriving DecidableEq, Repr

/-- One recorder tap. -/
structure Tap where
  serial : Nat := 0             -- next SERIAL
  open_ : Option Sector := none
  full : List Sector := []      -- closed, not yet written
  queue : List TapItem := []    -- what the tap still has to record, in linking order
  skipPic : List Nat := []      -- streams of which the rest of a picture is skipped
  keepFirst : Nat := 0
  keepLast : Nat := 0
  frozen : Bool := false
  shortPre : Bool := false
  shortPost : Bool := false
  ring : Word := 0              -- REC_TAP_RING as taken when recording started (R416)
  rolling : Bool := false       -- HOLD as taken then
  flagsDue : Bool := false      -- the flags of R415 are still to be written after the freeze
  hist : List (Nat × Nat) := [] -- first serial written in each 100 ms span of domain 0, with the span
deriving DecidableEq, Repr

/-- The Retriever. -/
structure Retriever where
  mode : RecMode := .idle
  source : Nat := 0
  trig : Wide := 0              -- T
  trigAt : Beat := 0            -- beat in which the trigger was accepted
  tap : SMap Tap := []
deriving DecidableEq, Repr

/-- A check snooper (R422 to R425). -/
structure Chk where
  st : Nat := 0                 -- 0 = OFF; 1 = SEEK; 2 = CHECK
  crc : Nat := 0
  bad : Bool := false           -- a packet of the running picture ended before its payload did
deriving DecidableEq, Repr

/-! ### Bugle (chapter 15) -/

/-- Supply and power state of the module (R430 to R432). -/
inductive Power where
  | off | brownout | sleep | listen | active | doze
deriving DecidableEq, Repr

/-- The power sequencer (R443 to R447). -/
inductive PwrSeq where
  | run | prepare | stopped | committed
deriving DecidableEq, Repr

/-- Bugle's state. -/
structure Bugle where
  power : Power := .active
  seq : PwrSeq := .run
  target : Nat := 0
  aborting : Bool := false      -- aborted; back to the state in power at the next boundary (R446)
  reqNext : Option (Nat × Bool) := none -- request to be judged at the next boundary: target, FORCE
  wakeNext : Option (Nat × Nat) := none -- DOZE exit at the next boundary: cause and index
  holdHost : Bool := false
  tc10Wait : Nat := 0            -- ports whose TC10 acknowledgement is awaited
  tc10Req : SMap Beat := []      -- partners' sleep requests not yet answered: port, beat of receipt (R456)
  prepAt : Beat := 0             -- beat of PREPARE
  inh : Nat := 3                 -- commanded levels of INH0 and INH1: BUG_INH_CFG.ACTIVE is 1 for both after a loss (R458)
  inhFault : Nat := 0
  vbatOk : Bool := true
  woken : Bool := false          -- a wake has been latched for which the D-die has not yet started (R448)
  vbatLow : Bool := false        -- a brownout has happened: VBAT_LOW is set at the next start (R432)
  dozed : Nat := 0               -- ports and buses disabled by DOZE: ports [23:0], CAN [31:24], LIN [35:32], standby [36]
  txSilent : Bool := false       -- outputs stopped by SLEEP_STOP
  pins : Nat := 0                -- WAKE pin levels
  swErr : SMap Nat := []         -- frame error counter of a selective-wake bus (R439)
  timerOn : Bool := false
  faultN : Bool := true          -- FAULT_N asserted (R538)
deriving DecidableEq, Repr

/-! ### Updates and configuration (chapter 16) -/

/-- A commit request in progress (R480). -/
structure CfgReq where
  src : Option (Nat × Nat)       -- command ring and index; none = UPD_CFG_CMD
  epoch : Word
  atBeat : Bool
  beat : Beat
  checked : Bool                 -- PENDING
deriving DecidableEq, Repr

/-- A record of a settings copy (R476): GROUP, FMT, and what its content sets: register address or entry index with its words. -/
structure SetRec where
  group : Nat
  fmt : Nat
  items : List (Nat × List Word) := []
deriving DecidableEq, Repr

/-- A settings copy in flash (R476 to R478): SEQ, EPOCH, its records, whether it is whole. -/
structure Settings where
  seq : Nat := 0
  epoch : Word := 0
  recs : List SetRec := []
  valid : Bool := false
deriving DecidableEq, Repr

/-- A peer of the fingerprint table besides its registers (R486): counter value and time-to-live of its last TLV, TLVs in a row
that differed from the expected epoch, and the announced FP last reported. -/
structure Peer where
  seen : Wide := 0
  ttl : Nat := 0
  mism : Nat := 0
  rep : Option Wide := none
deriving DecidableEq, Repr

/-- When an expected peer was last heard, and whether its silence has been reported (R486). -/
structure ExpPeer where
  seen : Wide := 0
  lost : Bool := false
deriving DecidableEq, Repr

/-- A 64 KiB erase block of an image area (R460): the bytes programmed; an unlisted byte is erased, 0xFF, or of a content that the
manual does not give (R551), named by `shipped`. -/
structure FBlock where
  shipped : Option Nat := none
  data : SMap Byte := []
deriving DecidableEq, Repr

/-- The update and configuration manager (chapter 16). -/
structure Update where
  main : SMap FBlock := []       -- area MAIN by block; an unlisted block holds the release image as shipped (R551)
  prior : SMap FBlock := []      -- area PRIOR; an unlisted block is erased
  stage : SMap FBlock := []      -- staging
  touched : List Nat := []       -- staging blocks written in this generation
  stageState : Nat := 0          -- 0 = EMPTY, 1 = OPEN, 2 = VERIFIED, 3 = FAILED
  owner : Nat := 0
  tester : Nat := 0
  testerGen : Nat := 0           -- GEN of the tester's OPEN
  gen : Nat := 0
  lastOp : Wide := 0
  blocks : Nat := 0              -- TransferData blocks received since the OPEN
  act : Nat := 0                 -- STEP of R471
  trial : Bool := false
  copyBlock : Nat := 0
  running : Nat := 0             -- 0 = MAIN, 1 = PRIOR, 2 = staging
  runState : Nat := 0            -- STATE_FMT, SET_FMT and MIN_SET_FMT of the running image
  runSet : Nat := 0
  runMin : Nat := 0
  setA : Settings := {}
  setB : Settings := {}
  putGroups : List Nat := []     -- groups written by SETTINGS_PUT since the start (R478)
  cfg : Option CfgReq := none
  mirror0 : List (List Word) := [] -- records in the first half of the counter mirror (R465), in order
  mirror1 : List (List Word) := [] -- records in the second half
  half : Bool := false             -- the half in use
  res : SMap Nat := []           -- UPD_RES_OWNER in force
  peer : SMap Peer := []
  exp : SMap ExpPeer := []
  bootHold : Bool := false
  startKind : Nat := 0
  hashed : Bool := false         -- CLK_START_STATUS.HASHED
  wcnt : SMap Nat := []          -- write counters of the image areas, 0 = MAIN, 1 = PRIOR, 2 = staging (R508)
  vrec : SMap (Nat × List Byte) := [] -- verification records by area: write counter and header hash (R508)
deriving DecidableEq, Repr

/-- Clocks, resets and start-up (chapter 17). -/
structure Clocks where
  resetN : Bool := true          -- RESET_N high
  phase : Nat := 1               -- start-up phase, 7 = READY
  hung : List (Nat × Option Word × Wide) := [] -- hung accesses, oldest first: address, the word of a write, counter value (R498)
  rstAt : Option Wide := none    -- CLK_RST_CMD: counter value at which the reset comes
  shepDown : Bool := false       -- Shepherd is restarting
  shepBeat : Option Beat := none -- beat at which the last restart after a lockstep mismatch completed
  shepLock : Bool := false       -- the last restart was for a lockstep mismatch
  pcieRef : Bool := true
  doubt : Nat := 0               -- a doubt met before READY: entered at the end of phase 6 (R509)
deriving DecidableEq, Repr

/-- What has been counted or recorded in the running beat, for the per-beat limits (R164, R180, R223). -/
structure BeatLim where
  pm : Nat := 0                  -- PARTIAL_MC records
  pmStr : List Nat := []         -- stream handles with a PARTIAL_MC record
  tm : Nat := 0                  -- PIC_LOSS and STALE records
  fw : Nat := 0                  -- FW_DENY records
  hookFault : Bool := false
  ctFull : Bool := false
deriving DecidableEq, Repr

/-- What the device put outside in the last command: on a bus, a lane, a pin or in host memory. The model's own record,
not the device's (log entry 6). -/
inductive Output where
  | read (data : Word)                                   -- completion of a register read
  | readBytes (w : Nat) (bytes : List Byte)              -- completion of a read of BAR4 window w
  | abort                                                -- Completer Abort
  | wireFrame (port : Nat) (bytes : List Byte) (good : Bool)  -- a frame on an Ethernet port; good = with a valid FCS
  | hostWrite (addr : Nat) (bytes : List Byte)
  | hostRead (addr : Nat) (len : Nat)
  | msix (vec : Nat)
  | shepherd (port : Nat) (bytes : List Byte) (stamp : Option Wide)
  | shepDone (token status detail lost : Nat) (stamp : Option (Nat × Wide))
  | canTx (bus : Nat) (f : BusFrame)
  | linHeader (ch : Nat) (id : Nat)
  | linTx (ch : Nat) (f : BusFrame) (checksum : Byte)
  | linWakePulse (ch : Nat)
  | tc10Sleep (port : Nat)
  | tc10Wake (port : Nat)
  | tc10Ack (port : Nat)
  | uds (tester code : Nat)
  | bugleReq (eng : Nat) (w : Word)
  | waits                                                -- the command may not start now; it has no effect
deriving DecidableEq, Repr

/-- The whole device. -/
structure State where
  pending : List Instr
  part : Part
  dOn : Bool                     -- the D-die is powered and out of reset
  regs : SMap Word
  prep : SMap Word
  ctrs : SMap Wide
  snap : SMap Wide
  hiLatch : SMap Word
  time : TimeUnit
  ports : SMap PortSt
  held : List Held
  nextFrame : Nat
  copies : List Copy
  nextCopy : Nat
  queues : SMap Queue
  picFull : Bool := false            -- TM_STATUS.PIC_FULL: a copy found no record free (R216)
  pics : SMap PicRec
  tracks : SMap Track
  audit : Nat
  softRetired : List Nat           -- cells retired while KEEP_RETIRED was full (R190)
  graphEpoch : Nat
  twin : Twin
  ruleEpoch : Nat
  ruleCopy : Nat
  gw : Gateway
  eng : SMap Engine
  loader : Loader
  hif : HostIf
  cry : Crypto
  ret : Retriever
  chk : SMap Chk
  bug : Bugle
  upd : Update
  clk : Clocks
  lim : BeatLim
  gpioHold : Option (Word × Word)  -- GLB_GPIO_OE and GLB_GPIO_OUT as the safe state holds them (R255)
  snapAt : Option (Option Beat)
  out : List Output
  free : Nat
deriving DecidableEq, Repr

/-- Right after the release of a power-on reset, before STARTUP (R504, R506): every table and queue empty, both planes in
SELFTEST, domain times 0, start-up phase 1, no command waiting. The registers read their reset values because none is
listed; KEEP_HDR holds its magic, layout and LOST = 1, and CLK_RST_CAUSE names the power-on. Values the manual leaves open
are those of log entries 2 and 3. -/
def State.reset : State :=
  { pending := [], part := .am7240, dOn := true,
    regs := [(0x10104, 1), (0x20100, 1), (0x20104, 0x05050505), (0x20110, 0x1313), (0x20114, 0x2006), (0x21180, 0x01014B45)],
    prep := [], ctrs := [], snap := [], hiLatch := [], time := {}, ports := [], held := [], nextFrame := 0, copies := [],
    nextCopy := 0, queues := [], pics := [], tracks := [], audit := 0, softRetired := [], graphEpoch := 0, twin := {},
    ruleEpoch := 0, ruleCopy := 0, gw := {}, eng := [], loader := {}, hif := {}, cry := {}, ret := {}, chk := [],
    bug := {}, upd := {}, clk := {}, lim := {}, gpioHold := none, snapAt := none, out := [], free := 0 }

end Sys2Proof.Machine
end

