-- ==== Sys2Proof/Machine/Operands.lean ====
section
/-! DEFINITION. What a command's operands name: a register and its fields, a port, a queue, a clock domain, the beat. -/

namespace Sys2Proof.Machine

/-- The beat number of the current beat. -/
abbrev State.beat (s : State) : Beat := s.time.beat

/-! ### Registers -/

/-- The value of replica (i, j) of a register: of a configuration record, the active bank's (R480). -/
def State.reg (s : State) (r : Reg) (i : Nat := 0) (j : Nat := 0) : Word :=
  SMap.get (r.resetAt i j) s.regs (r.addr i j)

/-- A field of a register. -/
def State.rfld (s : State) (r : Reg) (lo n : Nat) (i : Nat := 0) (j : Nat := 0) : Nat := fld (s.reg r i j) lo n

/-- A bit of a register. -/
def State.rbit (s : State) (r : Reg) (k : Nat) (i : Nat := 0) (j : Nat := 0) : Bool := bit (s.reg r i j) k

/-- Replica (i, j) of a register takes a value; a value equal to the reset value is not listed. -/
def State.setReg (s : State) (r : Reg) (v : Word) (i : Nat := 0) (j : Nat := 0) : State :=
  { s with regs := SMap.set (r.resetAt i j) s.regs (r.addr i j) v }

/-- A field of a register takes a value. -/
def State.setRfld (s : State) (r : Reg) (lo n v : Nat) (i : Nat := 0) (j : Nat := 0) : State :=
  s.setReg r (setFld (s.reg r i j) lo n v) i j

/-- A bit of a register takes a value. -/
def State.setRbit (s : State) (r : Reg) (k : Nat) (b : Bool) (i : Nat := 0) (j : Nat := 0) : State :=
  s.setReg r (setBit (s.reg r i j) k b) i j

/-- A 64-bit value over a LO and a HI register. -/
def State.reg64 (s : State) (lo hi : Reg) (i : Nat := 0) (j : Nat := 0) : Nat :=
  (s.reg lo i j).toNat + 2 ^ 32 * (s.reg hi i j).toNat

/-- Writes a number over a LO and a HI register. -/
def State.setReg64 (s : State) (lo hi : Reg) (v : Nat) (i : Nat := 0) (j : Nat := 0) : State :=
  (s.setReg lo (BitVec.ofNat 32 v) i j).setReg hi (BitVec.ofNat 32 (v / 2 ^ 32)) i j

/-- A register's value in the prepared bank (R480): the written one, else the active bank's. -/
def State.preg (s : State) (r : Reg) (i : Nat := 0) (j : Nat := 0) : Word :=
  (SMap.find? s.prep (r.addr i j)).getD (s.reg r i j)

/-- A field of a register saturates at its largest value when counted up by one. -/
def State.satInc (s : State) (r : Reg) (lo n : Nat) (i : Nat := 0) (j : Nat := 0) : State :=
  let v := s.rfld r lo n i j
  if v + 1 < 2 ^ n then s.setRfld r lo n (v + 1) i j else s

/-! ### Ports, queues and clock domains -/

/-- R13: the queue of a port and traffic class. -/
def queueNo (port tc : Nat) : Nat := 8 * port + tc

/-- R2: is port `n` present on this part. -/
def State.hasPort (s : State) (n : Nat) : Bool :=
  match s.part with
  | .am7240 => true
  | .am7220 => n != 2 && n != 3

/-- The CLK_GATE and CLK_DOMAIN_STATUS bit of the clock of port `n` (R495). -/
def portClk (n : Nat) : Nat := if n < 4 then 3 + n else if n < 20 then 9 else n - 13

/-- R495, R497: does the clock domain of a CLK_DOMAIN_STATUS bit run. -/
def State.clkRuns (s : State) (k : Nat) : Bool := s.rbit .CLK_DOMAIN_STATUS k

end Sys2Proof.Machine
end

