-- ==== Sys2Proof/Machine/TimeOps.lean ====
section
/-! DEFINITION. The free-running counter, the time domains and the beat generator (R325 to R339). -/

namespace Sys2Proof.Machine

/-- One TIME clock with nothing commanded: the counter advances by 1 while the D-die runs (R325). -/
def tick (s : State) : State :=
  if s.dOn then { s with time := { s.time with cnt := s.time.cnt + 1 }, out := [] } else { s with out := [] }

/-- Domain `d` (R326). -/
def State.domain (s : State) (d : Nat) : Domain := SMap.get {} s.time.dom d

/-- R326: the domain's time in 2^-16 ns at counter value `c`. -/
def Domain.at (d : Domain) (c : Wide) : Int :=
  d.ta + (((c.toNat : Int) - d.ca.toNat) * (16 * 65536) * (2 ^ 41 + d.rate)) / (5 * 2 ^ 41)

/-- R326: the reading in whole ns, truncated, modulo 2^64. -/
def Domain.ns (d : Domain) (c : Wide) : Wide := BitVec.ofInt 64 (d.at c / 65536)

/-- R336: beat time in 2^-16 ns at counter value `c`: domain 0 time less E. -/
def State.beatTime (s : State) (c : Wide) : Int := (s.domain 0).at c - s.time.err / 10

/-- The time of timer code `t` in 2^-16 ns: 0 to 3 = domains, 4 = beat time (R341). -/
def State.timer (s : State) (t : Nat) : Int :=
  if t < 4 then (s.domain t).at s.time.cnt else s.beatTime s.time.cnt

/-- The first counter value at which the domain reads `t` (2^-16 ns) or later. -/
def Domain.when (d : Domain) (t : Int) : Wide :=
  let den := (16 * 65536) * (2 ^ 41 + d.rate)
  let q := ((t - d.ta) * (5 * 2 ^ 41) + den - 1) / den
  BitVec.ofInt 64 ((d.ca.toNat : Int) + q)

end Sys2Proof.Machine
end

