-- ==== Sys2Proof/Machine/Flags.lean ====
section
/-! DEFINITION. What a command flags: counters, sticky events with their interrupts, event records. -/

namespace Sys2Proof.Machine

/-! ### Counters (R511, R513) -/

/-- The live value of a counter. -/
def State.ctr (s : State) (c : Ctr) : Wide := SMap.get 0 s.ctrs c.off

/-- R511: the counter goes up by `n`, modulo 2^64. -/
def State.bump (s : State) (c : Ctr) (n : Nat := 1) : State :=
  { s with ctrs := SMap.upd 0 s.ctrs c.off (· + BitVec.ofNat 64 n) }

/-- A maximum held in a counter place (QMAX). -/
def State.maxCtr (s : State) (c : Ctr) (v : Nat) : State :=
  { s with ctrs := SMap.upd 0 s.ctrs c.off (fun x => if x.toNat < v then BitVec.ofNat 64 v else x) }

/-! ### Interrupts, sticky events and event records (R368, R369, R516, R517) -/

/-- R369: vector `v` has one more pending raise; FIRST_PENDING is the beat of the first of them. -/
def State.pend (s : State) (v : Nat) : State :=
  let x := SMap.get {} s.hif.vec v
  let x' : Vec := { x with pending := x.pending + 1, first := if x.pending = 0 then s.beat else x.first }
  { s with hif := { s.hif with vec := SMap.set {} s.hif.vec v x' } }

/-- Bit `k` of a sticky event register is set; with its enable bit set the event counts on HIF_MISC_VEC (R369). -/
def State.flag (s : State) (ev en : Reg) (k : Nat) (i : Nat := 0) : State :=
  let s1 := s.setRbit ev k true i
  if s1.rbit en k i then s1.pend (s1.rfld .HIF_MISC_VEC 0 6) else s1

/-- R516, R517: an event record of the current beat, with the next device-wide number. -/
def State.emit (s : State) (code src detail : Nat) (args : List Word := []) : State :=
  let r : EvRec := { code, src, seq := s.hif.evSeq % 65536, beat := s.beat.toNat % 2 ^ 32,
                     detail := detail % 2 ^ 32, args := (args ++ List.replicate 5 0).take 5 }
  { s with hif := { s.hif with evNew := s.hif.evNew ++ [r], evSeq := s.hif.evSeq + 1 } }

/-- An event record that its block's enable bit allows (R517). -/
def State.emitIf (s : State) (en : Bool) (code src detail : Nat) (args : List Word := []) : State :=
  if en then s.emit code src detail args else s

end Sys2Proof.Machine
end

