-- ==== Sys2Proof/Machine/Ops.lean ====
section
/-! DEFINITION. The named operations over State that every block uses: the ways a command is answered, what it puts outside, free
values, and the structured state by key. -/

namespace Sys2Proof.Machine

/-- What exec answers. -/
abbrev Ans := Host.Outcome State Fault Refusal

/-- What no command changes, taken from the state before it: the commands that wait outside and the part (R2); and of the lands,
the level of RESET_N, which only its own command changes (R504). -/
def State.keepOutside (s t : State) : State :=
  { t with pending := s.pending, part := s.part, clk := { t.clk with resetN := s.clk.resetN } }

/-- `s` with an empty record of outputs: what the next command puts outside is recorded from here (log entry 6). -/
def State.quiet (s : State) : State := { s with out := [] }

/-- A command that acts whether or not the D-die runs: Bugle, the supplies and the resets (R430, R504). -/
def always (s : State) (f : State → State) : Ans := .next (s.keepOutside (f s.quiet))

/-- A command of the D-die: with the D-die off or in reset nothing there can act (R447, R504), so it has no effect. -/
def onDie (s : State) (f : State → State) : Ans :=
  if s.dOn then .next (s.keepOutside (f s.quiet)) else .next s.quiet

/-- A command that sets the level of RESET_N: it acts whether or not the D-die runs (R504). -/
def onResetLand (s : State) (level : Bool) (f : State → State) : Ans :=
  .next (({ s with clk := { s.clk with resetN := level } }).keepOutside (f s.quiet))

/-- `t` with the time unit as `s` has it: work that passes within one instant. -/
def State.sameTime (s t : State) : State := { t with time := s.time }

/-- `t` in the beat of `s`: the work of a beat's boundary does not move the beat. -/
def State.sameBeat (s t : State) : State :=
  { t with time := { t.time with beat := s.time.beat, beatAt := s.time.beatAt } }

/-- Places one item in the record of what this command put outside. -/
def State.put (s : State) (o : Output) : State := { s with out := s.out ++ [o] }

/-- Places several items. -/
def State.puts (s : State) (l : List Output) : State := { s with out := s.out ++ l }

/-- A write to a register of a block whose domain may be stopped: while it is, the access is refused or hangs (R351, R498), and
the block takes nothing. -/
def onClk (s : State) (k : Nat) (f : State → State) : Ans := onDie s (fun s => if s.clkRuns k then f s else s)

/-- A fresh free value (log entry 1), and the state with the occasion counted. -/
def State.fresh (s : State) : Word × State := (Config.freeWord s.free, { s with free := s.free + 1 })

/-! ### Structured state by key -/

/-- Port `n`. -/
def State.port (s : State) (n : Nat) : PortSt := SMap.get {} s.ports n
/-- Port `n` replaced. -/
def State.setPort (s : State) (n : Nat) (p : PortSt) : State := { s with ports := SMap.set {} s.ports n p }
/-- Port `n` modified. -/
def State.updPort (s : State) (n : Nat) (f : PortSt → PortSt) : State := s.setPort n (f (s.port n))
/-- Queue `q` (R13: 8 × port + traffic class). -/
def State.queue (s : State) (q : Nat) : Queue := SMap.get {} s.queues q
/-- Queue `q` replaced. -/
def State.setQueue (s : State) (q : Nat) (v : Queue) : State := { s with queues := SMap.set {} s.queues q v }
/-- Engine `e`. -/
def State.engine (s : State) (e : Nat) : Engine := SMap.get {} s.eng e
/-- Engine `e` replaced. -/
def State.setEngine (s : State) (e : Nat) (v : Engine) : State := { s with eng := SMap.set {} s.eng e v }
/-- CAN controller `c`. -/
def State.can (s : State) (c : Nat) : Can := SMap.get {} s.gw.can c
/-- CAN controller `c` replaced. -/
def State.setCan (s : State) (c : Nat) (v : Can) : State := { s with gw := { s.gw with can := SMap.set {} s.gw.can c v } }
/-- LIN channel `l`. -/
def State.linc (s : State) (l : Nat) : Lin := SMap.get {} s.gw.lin l
/-- LIN channel `l` replaced. -/
def State.setLin (s : State) (l : Nat) (v : Lin) : State := { s with gw := { s.gw with lin := SMap.set {} s.gw.lin l v } }
/-- Ring `r` (0–31 TX, 32–63 RX, 64–65 command, 66–69 event). -/
def State.ring (s : State) (r : Nat) : Ring := SMap.get {} s.hif.ring r
/-- Ring `r` replaced. -/
def State.setRing (s : State) (r : Nat) (v : Ring) : State :=
  { s with hif := { s.hif with ring := SMap.set {} s.hif.ring r v } }
/-- Kennel slot `k`. -/
def State.slot (s : State) (k : Nat) : Slot := SMap.get {} s.cry.slot k
/-- Kennel slot `k` replaced. -/
def State.setSlot (s : State) (k : Nat) (v : Slot) : State := { s with cry := { s.cry with slot := SMap.set {} s.cry.slot k v } }
/-- Recorder tap `t`. -/
def State.rtap (s : State) (t : Nat) : Tap := SMap.get {} s.ret.tap t
/-- Recorder tap `t` replaced. -/
def State.setTap (s : State) (t : Nat) (v : Tap) : State := { s with ret := { s.ret with tap := SMap.set {} s.ret.tap t v } }
/-- A held frame by its number. -/
def State.heldOf (s : State) (f : Nat) : Option Held := s.held.find? (fun h => h.id == f)
/-- A held frame replaced by its new version. -/
def State.setHeld (s : State) (h : Held) : State := { s with held := s.held.map (fun x => if x.id = h.id then h else x) }
/-- A held frame leaves the holding area. -/
def State.dropHeld (s : State) (f : Nat) : State := { s with held := s.held.filter (fun h => h.id != f) }
/-- A copy by its number. -/
def State.copyOf (s : State) (k : Nat) : Option Copy := s.copies.find? (fun c => c.id == k)
/-- A copy replaced by its new version. -/
def State.setCopy (s : State) (c : Copy) : State := { s with copies := s.copies.map (fun x => if x.id = c.id then c else x) }
/-- A copy disappears. -/
def State.dropCopy (s : State) (k : Nat) : State := { s with copies := s.copies.filter (fun c => c.id != k) }

end Sys2Proof.Machine
end

