-- ==== Sys2Proof/Machine/WinCore.lean ====
section
/-! DEFINITION. The checks of the host interface on writes (R351), the posted-write error log, and how the requests and fence reads of a
remote window end (R377 to R379). -/

namespace Sys2Proof.Machine

/-! ### What an access may reach (R4, R5, R351, R495) -/

/-- The classes of R11 and R30. -/
inductive PortClass where
  | b | c | f | m | h | host | svc
deriving DecidableEq, Repr

/-- The class of port `n`. -/
def portClass (n : Nat) : PortClass :=
  if n < 4 then .b else if n < 12 then .c else if n < 16 then .f else if n < 20 then .m
  else if n < 22 then .h else if n = 22 then .host else .svc

/-- R4, R58, R176, R193, R230, R351, R408: a register of a port, queue or SecY that the part lacks. -/
def State.partLacks (s : State) (r : Reg) (i : Nat) : Bool :=
  s.part == .am7220 &&
    (let a := r.row.base
     if 0x100000 ≤ a ∧ a < 0x200000 then i == 2 || i == 3
     else if r = .BUF_HOLD_RSV then i == 2 || i == 3
     else if r = .BUF_Q_CFG ∨ r = .BUF_Q_DEPTH then decide (16 ≤ i ∧ i < 32)
     else if 0x600400 ≤ a ∧ a < 0x620000 then i == 2 || i == 3
     else if 0x630000 ≤ a ∧ a < 0x640000 then decide (16 ≤ i ∧ i < 32)
     else if 0xA01000 ≤ a ∧ a < 0xA10000 then i == 2 || i == 3
     else false)

/-- R58, R292: a register that a port's class or a CAN controller lacks: it reads as zero and ignores writes. -/
def classLacks (r : Reg) (i : Nat) : Bool :=
  match r with
  | .PORT_PLCA_CFG | .PORT_PLCA_BURST | .PORT_PLCA_STATUS => portClass i != .m
  | .PORT_FASTLINK_CFG | .PORT_FASTLINK_STATUS | .PORT_FASTLINK_CTRL => portClass i != .b && portClass i != .c
  | .PORT_SECY_CFG | .PORT_SECY_BYPASS | .PORT_SECY_REPLAY => portClass i != .b && portClass i != .h
  | .GW_CAN_XBT => decide (2 ≤ i)
  | _ => false

/-- The bit of CLK_DOMAIN_STATUS of the domain in which the block of an address lies, if it can stop (R495). -/
def domainOf (a : Nat) : Option Nat :=
  if 0x30000 ≤ a ∧ a < 0x50000 then some 10
  else if 0x100000 ≤ a ∧ a < 0x158000 then some (portClk ((a - 0x100000) / 0x4000))
  else if 0x700000 ≤ a ∧ a < 0x800000 then some 12
  else if 0x800000 ≤ a ∧ a < 0x900000 then some 2
  else none

/-- Is the domain of an address stopped. -/
def State.stopped (s : State) (a : Nat) : Bool :=
  match domainOf a with
  | some k => !s.clkRuns k
  | none => false

/-- R351: the cause for which a whole-DW write to register `r` of index `i` is refused; `some 0` = discarded without an entry. -/
def State.regRefusal (s : State) (r : Reg) (i : Nat) : Option Nat :=
  if s.partLacks r i then some 0
  else if s.stopped (r.addr i 0) then some 3
  else if s.rbit .GLB_LOCK 0 && r.row.acc == .rwl then some 4
  else none

/-- R352, R496: can the host reach the device: PERST_N is high and the PCIe reference is present. -/
def State.hostUp (s : State) : Bool := s.clk.pcieRef && !s.hif.perst

/-- A command of the host. -/
def fromHost (s : State) (f : State → State) : Ans := onDie s (fun s => if s.hostUp then f s else s)

/-! ### The posted-write error log (R379) -/

/-- Window `w`. -/
def State.win (s : State) (w : Nat) : Win := SMap.get {} s.hif.win w
/-- Window `w` replaced. -/
def State.setWin (s : State) (w : Nat) (x : Win) : State := { s with hif := { s.hif with win := SMap.set {} s.hif.win w x } }

/-- R379: one entry of the posted-write error log: source, BAR0 offset or target address, sequence number, cause. -/
def pweLog (s : State) (src off seq cause : Nat) : State :=
  let e : List Word := [BitVec.ofNat 32 (src + 256 * cause), BitVec.ofNat 32 (off % 2 ^ 26), BitVec.ofNat 32 seq,
                        BitVec.ofNat 32 s.beat.toNat]
  let s := if s.hif.pwe.length < 64 then { s with hif := { s.hif with pwe := s.hif.pwe ++ [e] } }
    else (s.satInc .WIN_PWE_STATUS 8 8).flag .WIN_EVENT .WIN_IRQ_EN 9
  let s := s.flag .WIN_EVENT .WIN_IRQ_EN (if src = 15 then 8 else src)
  s.emitIf (s.rbit .WIN_CTRL 19) 0x91 src 0 e

/-- R351: HIF_BAR0_SEQ counts a BAR0 write received. -/
def seqStep (s : State) : State := s.setReg .HIF_BAR0_SEQ (s.reg .HIF_BAR0_SEQ + 1)

/-- R351: a whole-DW BAR0 write to register `r` of index `i`, whose effect is `f`: counted, then served, or discarded and logged. -/
def barWrite (s : State) (r : Reg) (i : Nat) (f : State → State) : State :=
  let s := seqStep s
  match s.regRefusal r i with
  | none => f s
  | some 0 => s
  | some c => pweLog s 15 (r.addr i 0) (s.reg .HIF_BAR0_SEQ).toNat c

/-- A command that is the host's BAR0 write to register `r` of index `i`, with effect `f` (R351). -/
def onBar0 (s : State) (r : Reg) (i : Nat) (f : State → State) : Ans := fromHost s (fun s => barWrite s r i f)

/-- A posted write of window `w` failed: it is logged and counted in FAILS (R378, R379). -/
def winFail (s : State) (w off seq cause : Nat) : State :=
  let s := pweLog s w off seq cause
  let x := s.win w
  s.setWin w { x with fails := min (x.fails + 1) 0xFFFFFF }

/-- R377: a read through window `w` fails. -/
def winRdFail (s : State) (w addr cause : Nat) : State :=
  ((s.put .abort).flag .WIN_EVENT .WIN_IRQ_EN 10).emit 0x90 w cause [BitVec.ofNat 32 addr]

/-- R378: has sequence number `a` been given no later than `b`, modulo 2^32. -/
def seqUpTo (a b : Nat) : Bool := decide ((b + 2 ^ 32 - a) % 2 ^ 32 < 2 ^ 31)

/-- R378: the word that a fence read of a window returns. -/
def Win.fenceWord (x : Win) : Word := BitVec.ofNat 32 (x.fails + if x.fails = 0 then 0 else 2 ^ 31)

/-- R378: is no write of the window with a SEQ up to `f` left. -/
def Win.settled (x : Win) (f : Nat) : Bool := (x.out ++ x.wait).all (fun q => !q.write || !seqUpTo q.seq f)

/-- R376: read data of target DWs as the host receives it: the bytes of the access, through the lanes. -/
def laneRead (off n : Nat) (swap : Bool) (data : List Byte) : List Byte :=
  (List.range n).map (fun i =>
    let x := off + i
    byteAt data (4 * (x / 4 - off / 4) + (if swap then 3 - x % 4 else x % 4)))

/-- R373, R377: a read through LOCAL window `w` ends: with its bytes, or with its first failing DW. -/
def localEnd (s : State) (w off len : Nat) (swap : Bool) (data : List Byte) (fail : Option (Nat × Nat)) : State :=
  match fail with
  | some (a, c) => winRdFail s w a c
  | none => s.put (.readBytes w (laneRead off len swap data))

/-- R378: a held fence read returns `x`: to the host, or into the LOCAL read of which it is a part. -/
def fenceEnd (s : State) (f : Fence) (x : Word) : State :=
  match f.loc with
  | none => s.put (.read x)
  | some h => localEnd s h.w h.off h.len h.swap (h.pre ++ leBytes x.toNat 4 ++ h.post) h.fail

/-- R378: the held fence reads of window `w` that wait for nothing more complete, oldest first. -/
def fenceAnswer (w : Nat) : List Fence → State → State
  | [], s => s
  | f :: l, s =>
    let x := s.win w
    if x.settled f.seq then fenceAnswer w l (fenceEnd (s.setWin w { x with fails := 0, fence := l }) f x.fenceWord) else s

/-- A read of WIN_FENCE of window `w`, by the host or as a part of a LOCAL read (R378). -/
def fenceRead (s : State) (w : Nat) (loc : Option LocalHold := none) : State :=
  let x := s.win w
  let s := s.setWin w { x with fence := x.fence ++ [{ seq := x.seq, loc }] }
  fenceAnswer w (s.win w).fence s

/-- A request of window `w` ends: with an answer or with a failure cause. -/
def winEnd (s : State) (w : Nat) (q : WinReq) (fail : Option (Nat × Nat)) : State :=
  let x := s.win w
  let s := s.setWin w { x with out := x.out.filter (fun r => r.seq != q.seq), wait := x.wait.filter (fun r => r.seq != q.seq) }
  let s := match fail with
    | none => s
    | some (cause, addr) => if q.write then winFail s w addr q.seq cause else winRdFail s w addr cause
  fenceAnswer w (s.win w).fence s

/-- R379, NOT_SENT: a request frame of this device was dropped in it. -/
def winDropped (s : State) (tok : Nat) : State :=
  (List.range 8).foldl (fun s w =>
    match (s.win w).out.find? (fun q => q.tok == tok) with
    | some q => winEnd s w q (some (7, q.addr))
    | none => s) s

end Sys2Proof.Machine
end

