-- ==== Sys2Proof/Machine/Buffer.lean ====
section
/-! DEFINITION. The shared buffer's accounts, the output queues, the tracking records and the picture tracker, and the one
operation by which a copy is lost (R166 to R193, R204, R212, R216 to R223). -/

namespace Sys2Proof.Machine

/-! ### Ports as the buffer and the output stages see them -/

/-- R55: B and H ports have a SecY; its index among the six (P0–P3, P20, P21). -/
def secyOf (n : Nat) : Option Nat :=
  if n < 4 then some n else if n = 20 then some 4 else if n = 21 then some 5 else none

/-- Mbit/s of a PORT_CTRL.SPEED code (R58); 0 for none. -/
def speedRate (c : Nat) : Nat :=
  match c with
  | 1 => 10000 | 2 => 5000 | 3 => 2500 | 4 => 1000 | 5 => 100 | 6 => 10 | _ => 0

/-- The class default speed code (PORT_CTRL.SPEED = 0). -/
def defaultSpeed (n : Nat) : Nat :=
  match portClass n with
  | .b => 1 | .c => 3 | .f => 5 | .m => 6 | .h => 1 | .host => 0 | .svc => 0

/-- PORT_LINK_STATUS.UP. -/
def State.up (s : State) (n : Nat) : Bool := s.rbit .PORT_LINK_STATUS 0 n

/-- The rate in Mbit/s of R201 and R204: the link's, else the last link's, else the class default; R11 for P22 and P23. -/
def State.rate (s : State) (n : Nat) : Nat :=
  if n = 22 then 15560 else if n = 23 then 8000
  else
    let cur := if s.up n then s.rfld .PORT_LINK_STATUS 1 3 n else 0
    let c := if cur ≠ 0 then cur else if (s.port n).prevSpeed ≠ 0 then (s.port n).prevSpeed else defaultSpeed n
    speedRate c

/-- MAX_LEN of a port; 9,216 for P22 and P23 (R47). -/
def State.maxLen (s : State) (n : Nat) : Nat := if n < 22 then s.rfld .PORT_MAC_CFG 0 14 n else 9216

/-- The Ethertype that the SecY sees: the two bytes after the addresses of the frame as stored. -/
def etherOf (bytes : List Byte) : Nat := beNat bytes 12 2

/-- R57: does an Ethertype pass the uncontrolled port of port `n`. -/
def State.bypass (s : State) (n ety : Nat) : Bool :=
  let e1 := s.rfld .PORT_SECY_BYPASS 16 16 n
  (ety == s.rfld .PORT_SECY_BYPASS 0 16 n) || (e1 != 0 && ety == e1)

/-- G of R201. -/
def State.growth (s : State) (n : Nat) (bytes : List Byte) : Nat :=
  match secyOf n with
  | none => 0
  | some _ =>
    if s.rbit .PORT_SECY_CFG 0 n && s.rbit .PORT_SECY_CFG 3 n && !s.bypass n (etherOf bytes) then
      if s.rbit .PORT_SECY_CFG 8 n then 32 else 24
    else 0

/-- W of R201. -/
def State.wireLen (s : State) (c : Copy) : Nat := max c.len 64 + s.growth c.port c.bytes + 20

/-- T of R201 in whole ns. -/
def State.txTime (s : State) (c : Copy) : Nat :=
  let r := s.rate c.port
  (s.wireLen c * 8000 + r - 1) / r

/-! ### Gate lists (R202 to R209) -/

/-- The segments of one cycle: gate states and length in ns, the last one lasting to the cycle's end. -/
def GateList.segs (g : GateList) : List (Nat × Nat) :=
  let es := g.ents.take g.len
  let sum := es.foldl (fun a e => a + e.2) 0
  match es.getLast? with
  | none => []
  | some l => es.dropLast ++ [(l.1, l.2 + (g.cycle * 8000 - sum))]

/-- The longest run of open time over a list of segments, with the run that is open at its start. -/
def longestRun (tc : Nat) : List (Nat × Nat) → Nat → Nat → Nat
  | [], _, best => best
  | (st, n) :: t, cur, best =>
    if st.testBit tc then longestRun tc t (cur + n) (max best (cur + n)) else longestRun tc t 0 best

/-- TM_Q_MAXWIN of R204; none = UNLIMITED. -/
def GateList.maxWin (g : GateList) (tc : Nat) : Option Nat :=
  if !g.en then none
  else if g.segs.all (fun e => e.1.testBit tc) then none
  else some (longestRun tc (g.segs ++ g.segs) 0 0)

/-- The gate states in operation on a port. -/
def PortSt.gateStates (p : PortSt) : Nat :=
  if p.gate.en then (p.gate.ents.getD p.gateEnt (0xFF, 0)).1 else 0xFF

/-- Is the gate of traffic class `tc` of port `n` open. P22 and P23 have no gates (R205). -/
def State.gateOpen (s : State) (n tc : Nat) : Bool :=
  if n < 22 then (s.port n).gateStates.testBit tc else true

/-- R206, R340: beats of the running gate cycle. A cycle begins at BASE plus whole cycles; one that a resynchronisation began
elsewhere is cut at the first such beat. -/
def PortSt.cycleBeats (p : PortSt) : Nat :=
  let c := max p.gate.cycle 1
  c - ((p.cycleAt - p.gate.base).toInt % (c : Int)).toNat

/-- The beat at which the running gate cycle of a port ends. -/
def PortSt.cycleEnd (p : PortSt) : Beat := p.cycleAt + BitVec.ofNat 48 p.cycleBeats

/-- The first `n` ns of a list of segments. -/
def cutSegs : Nat → List (Nat × Nat) → List (Nat × Nat)
  | _, [] => []
  | n, (st, l) :: t => if n ≤ l then [(st, n)] else (st, l) :: cutSegs (n - l) t

/-- The segments of the running cycle. -/
def PortSt.segs (p : PortSt) : List (Nat × Nat) := cutSegs (p.cycleBeats * 8000) p.gate.segs

/-- The beat-time instant (ns) at which entry `e` of the running cycle ends. -/
def PortSt.entEnd (p : PortSt) (e : Nat) : Nat :=
  p.cycleAt.toNat * 8000 + ((p.segs.take (e + 1)).foldl (fun a x => a + x.2) 0)

/-- ns of open time for class `tc` that follow over a list of segments; none when every one is open. -/
def openRun (tc : Nat) : List (Nat × Nat) → Option Nat
  | [] => none
  | (st, n) :: t =>
    if st.testBit tc then (match openRun tc t with | none => none | some r => some (n + r)) else some 0

/-- R208: the first beat from `c` on at which a pending list takes over. -/
def takeoverBeat (g : GateList) (c : Beat) : Beat :=
  if ahead g.base c then g.base
  else
    let d := (c - g.base).toNat
    g.base + BitVec.ofNat 48 (((d + g.cycle - 1) / g.cycle) * g.cycle)

/-- ns from now to the end E of the open interval of R202; none = no end. `now` is the beat time in ns. -/
def State.openLeft (s : State) (n tc : Nat) (now : Int) : Option Int :=
  if n ≥ 22 then none
  else
    let p := s.port n
    let take : Option Int := match p.gatePend with
      | none => none
      | some g => some (((takeoverBeat g (s.beat + 1) - s.beat).toNat + s.beat.toNat : Nat) * 8000 - now)
    let close : Option Int :=
      if !p.gate.en then none
      else
        let sg := p.gate.segs
        let rest := p.segs.drop (p.gateEnt + 1) ++ sg
        match openRun tc rest with
        | none => none
        | some r => some ((p.entEnd p.gateEnt : Int) + r - now)
    match take, close with
    | none, c => c
    | some a, none => some a
    | some a, some b => some (min a b)

/-! ### Cells and accounts (R170, R175) -/

/-- Cells of a copy of stored length S. -/
def cellsOf (len : Nat) : Nat := (len + 255) / 256

/-- Does a copy count against its queue: from admission until it is freed (R173). -/
def Copy.counted (c : Copy) : Bool := c.phase != .lost

/-- u_q of R175. -/
def State.qUsed (s : State) (q : Nat) : Nat :=
  s.copies.foldl (fun a c => if c.counted && queueNo c.port c.tc == q then a + cellsOf c.len else a) 0

/-- Copies counted against a queue. -/
def State.qCopies (s : State) (q : Nat) : Nat :=
  s.copies.foldl (fun a c => if c.counted && queueNo c.port c.tc == q then a + 1 else a) 0

/-- RSV_q; queues 16 to 31 read as zero on the AM7220 (R176). -/
def State.qRsv (s : State) (q : Nat) : Nat :=
  if s.hasPort (q / 8) then s.rfld .BUF_Q_CFG 0 16 q else 0

/-- Retired cells: those in KEEP_RETIRED and those not kept (R190). -/
def State.retiredCells (s : State) : List Nat :=
  ((List.range 32).filter (fun i => s.rbit .KEEP_RETIRED 31 i)).map (fun i => s.rfld .KEEP_RETIRED 0 15 i) ++ s.softRetired

/-- How many cells are retired. -/
def State.retired (s : State) : Nat := s.retiredCells.length

/-- R173, R190: the first cell from `c` on that is neither retired nor the first cell of a copy. -/
def State.freeCell (s : State) : Nat → Nat → Nat
  | 0, c => c
  | n + 1, c => if s.retiredCells.contains c || s.copies.any (fun x => x.cell == c) then s.freeCell n ((c + 1) % 32768) else c

/-- R190: the first cell of the next copy: a free value (R173) among the cells that are neither retired nor in use. -/
def State.pickCell (s : State) : Nat :=
  s.freeCell (s.retired + s.copies.length) (Config.cellIndex s.nextCopy).toNat

/-- SHARED_SIZE of R175. -/
def State.sharedSize (s : State) : Nat :=
  32768 - (List.range 192).foldl (fun a q => a + s.qRsv q) 0 - s.retired

/-- F of R175. -/
def State.sharedFree (s : State) : Nat :=
  let qs := (s.copies.map (fun c => queueNo c.port c.tc)).eraseDups
  s.sharedSize - qs.foldl (fun a q => a + (s.qUsed q - s.qRsv q)) 0

/-- FREE_CELLS: cells of no copy and not retired. -/
def State.freeCells (s : State) : Nat :=
  32768 - s.copies.foldl (fun a c => a + cellsOf c.len) 0 - s.retired

/-- R175: is a copy of `n` cells of colour yellow or green admitted to queue `q`. -/
def State.admits (s : State) (q n : Nat) (yellow : Bool) : Bool :=
  let u := s.qUsed q
  let rsv := s.qRsv q
  let e := (u + n - rsv) - (u - rsv)
  let a := if yellow then s.rfld .BUF_Q_CFG 20 4 q else s.rfld .BUF_Q_CFG 16 4 q
  let f := s.sharedFree
  decide (e = 0) || (decide (e ≤ f) && decide ((u + n - rsv) * 64 ≤ 2 ^ a * f))

/-- R167: the holding-area blocks of a frame of `n` bytes without its FCS. -/
def blocksOf (n : Nat) : Nat := (n + 255) / 256

/-- R358: the holding-area blocks of the frame of a TX descriptor, which is padded to 60 bytes. -/
def Desc.blocks (d : Desc) : Nat := blocksOf (max 60 (wfld d.words 2 0 14))

/-- R358: the blocks reserved for host frames whose data reads are outstanding. -/
def State.txRsv (s : State) : Nat :=
  (List.range 32).foldl (fun a r => (s.ring r).fetched.foldl (fun a d => if d.state = 4 then a + d.blocks else a) a) 0

/-- Holding-area blocks held by a port's frames or reserved for them (R167, R358). -/
def State.holdUsed (s : State) (n : Nat) : Nat :=
  s.held.foldl (fun a h => if h.port = n then a + h.blocks else a) (if n = 22 then s.txRsv else 0)

/-- BUF_HOLD_RSV of a port; P2 and P3 read as zero on the AM7220 (R176). -/
def State.holdRsv (s : State) (n : Nat) : Nat := if s.hasPort n then s.rfld .BUF_HOLD_RSV 0 12 n else 0

/-- Free blocks of the shared part of the holding area (R167). -/
def State.holdSharedFree (s : State) : Nat :=
  (List.range 24).foldl (fun a n => a - (s.holdUsed n - s.holdRsv n))
    (2048 - (List.range 24).foldl (fun a n => a + s.holdRsv n) 0)

/-- Free blocks of the holding area. -/
def State.holdFree (s : State) : Nat := s.held.foldl (fun a h => a - h.blocks) (2048 - s.txRsv)

/-- R167: does port `n` find `b` more blocks, in its reservation or the shared part. -/
def State.holdRoom (s : State) (n b : Nat) : Bool :=
  decide (s.holdUsed n + b - max (s.holdRsv n) (s.holdUsed n) ≤ s.holdSharedFree)

/-! ### Picture tracker (R216 to R219, R223) -/

/-- The key of a queue and stream handle. -/
def picKey (q h : Nat) : Nat := q * 4096 + h

/-- The record of a pair, if allocated. -/
def State.pic (s : State) (q h : Nat) : Option PicRec := SMap.find? s.pics (picKey q h)

/-- Is picture `k` one that a record follows as dropped (R219). -/
def PicRec.follows (r : PicRec) (k : Nat) : Bool := r.drops.any (fun d => d.1 == k)

/-- R218, R219, R223: a copy of picture `k` of stream `h` on queue `q`, with place `sq` in the order of the copies, is lost with
drop cause `cause`: every later copy of the picture is dropped. -/
def picLoss (s : State) (q h k cause sq : Nat) : State :=
  match s.pic q h with
  | none => s
  | some r =>
    if r.follows k then
      let l := r.drops.map (fun d => if d.1 = k then (k, min d.2 sq) else d)
      { s with pics := SMap.put s.pics (picKey q h) { r with drops := l } }
    else if r.drops.length ≥ 2 then s.bump (.queue q .PIC_SLOT_FULL)
    else
      let s := { s with pics := SMap.put s.pics (picKey q h) { r with drops := r.drops ++ [(k, sq)] } }
      if !s.rbit .TM_CTRL 3 then s
      else if s.lim.tm < s.rfld .TM_EVT_CFG 0 8 then
        { s.emit 0x40 (q / 8) (h + q * 2 ^ 16 + cause * 2 ^ 24) [BitVec.ofNat 32 k] with
          lim := { s.lim with tm := s.lim.tm + 1 } }
      else s.bump (.device .TM_EVT_SUPPRESSED)

/-- Is a copy of picture `k` of stream `h` queued on queue `q`. -/
def State.picQueued (s : State) (q h k : Nat) : Bool :=
  s.copies.any (fun c => queueNo c.port c.tc == q && c.stream == some h && c.pic == some k &&
    (c.phase == .pending || c.phase == .written || c.phase == .linked))

/-- R219: a record stops following a picture once its EOP copy was judged and no copy of it is queued. -/
def picPrune (s : State) (q h : Nat) : State :=
  match s.pic q h with
  | none => s
  | some r =>
    let d := r.drops.filter (fun d => d.1 == r.num || s.picQueued q h d.1)
    if d = r.drops then s else { s with pics := SMap.put s.pics (picKey q h) { r with drops := d } }

/-! ### Queues (R172, R173, R211, R212) -/

/-- R212: a credit (times 2,500) after `n` counter steps with the gate open: it rises while the queue holds a copy or is
below 0, and never above the limit. -/
def creditRise (cr : Int) (slope hi n : Nat) (holds : Bool) : Int :=
  let top : Int := hi * 256 * 2500
  if holds then min (cr + slope * n) top
  else if cr < 0 then
    let need := if slope = 0 then n else ((-cr).toNat + slope - 1) / slope
    min (cr + slope * (min n need)) top
  else min cr top

/-- Brings the credit of queue `q` up to the present counter value (R212). -/
def accrue (s : State) (q : Nat) : State :=
  let v := s.queue q
  let n := (s.time.cnt - v.creditAt).toNat
  let hi := s.rfld .TM_Q_HI_CREDIT 0 20 q
  let cr :=
    if !s.rbit .TM_Q_SCHED 16 q then v.credit
    else if s.gateOpen (q / 8) (q % 8) then creditRise v.credit (s.rfld .TM_Q_IDLE_SLOPE 0 24 q) hi n (!v.list.isEmpty)
    else min v.credit (hi * 256 * 2500)
  s.setQueue q { v with credit := cr, creditAt := s.time.cnt }

/-- Brings the credits of the eight queues of a port up to date, before its gates change. -/
def accruePort (s : State) (n : Nat) : State := (List.range 8).foldl (fun s t => accrue s (queueNo n t)) s

/-- Copy `k` leaves the list of queue `q`; a queue left empty loses a positive credit (R212) and its place in the deficit
round robin list (R211). -/
def unlink (s : State) (q k : Nat) : State :=
  let s := accrue s q
  let v := s.queue q
  if !v.list.contains k then s
  else
    let l := v.list.filter (fun x => x != k)
    if l.isEmpty then
      let s := s.setQueue q { v with list := [], credit := if v.credit > 0 then 0 else v.credit, deficit := 0 }
      s.updPort (q / 8) (fun p => { p with drr := p.drr.filter (fun t => t != q % 8) })
    else s.setQueue q { v with list := l }

/-! ### Tracking records (R181) and completions (R359, R366) -/

/-- The completion of an originated frame: status, detail, mask of lost copies, transmit stamp. -/
def completeFrame (s : State) (owner : FrameSrc) (status detail lost : Nat) (stamp : Option (Nat × Wide)) : State :=
  match owner with
  | .host r idx =>
    let g := s.ring r
    s.setRing r { g with fetched := g.fetched.map (fun d =>
      if d.idx = idx ∧ d.state = 2 then { d with state := 3, status, detail, lost, stamp } else d) }
  | .shepherd token =>
    let s := s.put (.shepDone token status detail lost stamp)
    if status = 0 then s else winDropped s token
  | _ => s

/-- The status and detail of a resolved record (R181, R366). -/
def Track.status (t : Track) : Nat × Nat :=
  if t.safe then (2, 0)
  else if t.down then (1, 0)
  else match t.cause with
    | none => (0, 0)
    | some (_, c) => (c / 256, c % 256)

/-- A record whose last copy is resolved reports to its originator and is freed. -/
def finishTrack (s : State) (t : Nat) : State :=
  match SMap.find? s.tracks t with
  | none => s
  | some r =>
    if r.left = 0 then
      completeFrame { s with tracks := SMap.erase s.tracks t } r.owner r.status.1 r.status.2 r.lost r.stamp
    else s

/-- How a copy was lost: its queue counter, the completion cause (status × 256 + detail), whether it counts as lost to a
down port or to the safe state (R181), and whether it is a loss of its picture (R218) with its drop cause. -/
structure Loss where
  ctr : Option QueueCtr
  code : Nat
  down : Bool := false
  safe : Bool := false
  pic : Option Nat := none
deriving DecidableEq, Repr

/-- One copy of a tracked frame on port `p` is resolved: sent, or lost with a cause. -/
def resolveTrack (s : State) (track : Option Nat) (p : Nat) (loss : Option Loss) : State :=
  match track with
  | none => s
  | some t =>
    match SMap.find? s.tracks t with
    | none => s
    | some r =>
      let r := { r with left := r.left - 1 }
      let r := match loss with
        | none => r
        | some l =>
          let first := match r.cause with | none => true | some (p0, _) => decide (p < p0)
          { r with lost := maskSet r.lost p, safe := r.safe || l.safe, down := r.down || l.down,
                   cause := if first then some (p, l.code) else r.cause }
      finishTrack { s with tracks := SMap.put s.tracks t r } t

/-- The stream of a copy that a tap has queued. -/
def State.tapStream (s : State) (x : TapItem) : Option Nat :=
  match x with
  | .copy k => (s.copyOf k).bind (·.stream)
  | .gap h _ _ _ _ _ _ => some h

/-- Increments the last item of a tap's queue where it is a gap of stream `h`; none where the stream's last item is a copy, or there is
none. The queue is given last item first. -/
def gapMore (s : State) (h : Nat) : List TapItem → Option (List TapItem)
  | [] => none
  | x :: t =>
    match x with
    | .gap h' n pi eo po tc a =>
      if h' = h then some (.gap h (min (n + 1) 16383) pi eo po tc a :: t) else (gapMore s h t).map (x :: ·)
    | .copy _ => if s.tapStream x = some h then none else (gapMore s h t).map (x :: ·)

/-- R410, R411: one more copy of its stream is skipped by tap `t`, whose queue is `q`; consecutive skipped copies of one stream share one
GAP record, whatever copies of other streams lie between. -/
def tapGap (s : State) (t : Nat) (q : List TapItem) (c : Copy) : List TapItem :=
  let h := c.stream.getD 0
  let one := q ++ [.gap h 1 c.picture c.eop c.port c.tc s.time.cnt]
  if s.copies.any (fun x => x.tap.contains t && x.stream == c.stream && (x.phase == .pending || x.phase == .written)) then one
  else match gapMore s h q.reverse with
    | some l => l.reverse
    | none => one

/-- R410: the taps that still had to read a dropped copy record it as a gap, in its place if it was linked. -/
def tapLose (s : State) (c : Copy) : State :=
  c.tap.foldl (fun s t =>
    let tp := s.rtap t
    let q := if tp.queue.contains (.copy c.id) then
        tp.queue.map (fun x => if x == .copy c.id then .gap (c.stream.getD 0) 1 c.picture c.eop c.port c.tc s.time.cnt else x)
      else tapGap (s.dropCopy c.id) t tp.queue c
    s.setTap t { tp with queue := q }) s

/-! ### Losing and freeing copies -/

/-- A copy is dropped: it leaves its queue, its cells and descriptor are freed (R173), the cause is counted on its queue,
its tracking record resolves, and its picture tracker record takes the loss (R218). -/
def loseCopy (s : State) (c : Copy) (l : Loss) : State :=
  let q := queueNo c.port c.tc
  let s := unlink s q c.id
  let s := tapLose s c
  let s := s.dropCopy c.id
  let s := match l.ctr with | some x => s.bump (.queue q x) | none => s
  let s := match l.pic, c.picture, c.stream, c.pic with
    | some cause, true, some h, some k => picPrune (picLoss s q h k cause c.seq) q h
    | _, _, some h, some _ => picPrune s q h
    | _, _, _, _ => s
  resolveTrack s c.track c.port (some l)

/-- A copy wholly sent or delivered: freed unless a tap has still to read it (R173). -/
def doneCopy (s : State) (c : Copy) : State :=
  let q := queueNo c.port c.tc
  let s := unlink s q c.id
  let s := if c.tap.isEmpty then s.dropCopy c.id else s.setCopy { c with phase := .tapOnly, tap := c.tap }
  let s := match c.stream, c.pic with
    | some h, some _ => picPrune s q h
    | _, _ => s
  resolveTrack s c.track c.port none

/-- A held frame leaves the holding area once every copy of it was written or refused (R168). -/
def freeHeld (s : State) (f : Nat) : State :=
  match s.heldOf f with
  | none => s
  | some h =>
    if h.admitted && !s.copies.any (fun c => c.frame == f && c.phase == .pending) then s.dropHeld f else s

/-- R70, R174 to R181: a frame dropped whole before admission; its originator learns the cause. -/
def dropFrame (s : State) (h : Held) (status detail : Nat) : State :=
  let s := s.dropHeld h.id
  let s := match h.track with
    | none => s
    | some t => { s with tracks := SMap.erase s.tracks t }
  completeFrame s h.src status detail 0 none

/-- R254, R255, R447: the copy being sent by a port, with its start forgotten. -/
def endTx (s : State) (n : Nat) : State := s.updPort n (fun p => { p with cur := none, curWire := [] })

/-- Counter steps that `b` bytes take at `r` Mbit/s. -/
def wireSteps (b r : Nat) : Nat := (b * 2500 + r - 1) / r

/-- Bytes of the frame on the wire of port `n` that have been sent by now, behind the preamble and SFD. -/
def State.sentBytes (s : State) (n : Nat) : Nat := (s.time.cnt - (s.port n).curAt).toNat * s.rate n / 2500 - 8

/-- R189: the frame on the wire of port `n` ends before its byte `at_`: in place of that byte and the bytes after it go 4 bytes that are
not the FCS of the bytes sent, and the gap follows. -/
def cutTx (s : State) (n at_ : Nat) : State :=
  let p := s.port n
  let w := p.curWire.take at_
  (s.setPort n { p with cur := none, curWire := [], busyTo := p.curAt + BitVec.ofNat 64 (wireSteps (w.length + 24) (s.rate n)) }).put
    (.wireFrame n w false)

/-- R183: the frame on the wire of a port whose link fell is ended without a valid FCS and counted TX_ABORT. -/
def abortTx (s : State) (n : Nat) (l : Loss) : State :=
  match (s.port n).cur with
  | none => s
  | some k =>
    match s.copyOf k with
    | none => endTx s n
    | some c => loseCopy (cutTx s n (s.sentBytes n)) c l

/-- R185 step 1: every copy in the eight queues of a port is dropped; a copy on the wire with them. -/
def flushQueues (s : State) (n : Nat) (l : Loss) : Nat × State :=
  let s := match (s.port n).cur with
    | none => s
    | some k => (match s.copyOf k with
      | none => endTx s n
      | some _ => cutTx s n (s.sentBytes n))
  let cs := s.copies.filter (fun c => c.port == n && c.phase != .tapOnly && c.phase != .lost)
  (cs.length, cs.foldl (fun s c => freeHeld (loseCopy s c l) c.frame) s)

end Sys2Proof.Machine
end

