-- ==== Sys2Proof/Machine/Cipher.lean ====
section
/-! DEFINITION. The cipher cores, the use of Kennel slots, and MACsec in both directions (R384 to R402). -/

namespace Sys2Proof.Machine

/-! ### Cores (R385, R388, R389) -/

/-- Is core `c` in service. -/
def State.coreOk (s : State) (c : Nat) : Bool := !maskBit s.cry.coreBad c

/-- The cores in service. -/
def State.okCores (s : State) : List Nat := (List.range 4).filter s.coreOk

/-- R389: displaced work goes to the cores in service in equal turns. -/
def takeTurn (s : State) : Option Nat × State :=
  match s.okCores[s.cry.turn % s.okCores.length]? with
  | none => (none, s)
  | some c => (some c, { s with cry := { s.cry with turn := (s.cry.turn + 1) % 12 } })

/-- R385, R389: the core that carries a MACsec frame of SecY `i`, and whether its lanes share cores: its own core; core 3 for the lanes of the
core that left service first; otherwise the cores in service in turn. -/
def secyCore (s : State) (i : Nat) : Option Nat × Bool × State :=
  let c := i / 2
  if s.coreOk c then (some c, false, s)
  else if s.coreOk 3 && s.cry.firstOut == some c then (some 3, false, s)
  else let x := takeTurn s; (x.1, true, x.2)

/-- R2, R385, R389: the core that carries a sector of the Retriever: with all cores in service core 3 (core 1 on the AM7220), otherwise
spare slots of the remaining cores, in turn. -/
def xtsCore (s : State) : Option Nat × State :=
  if s.cry.coreBad = 0 then (some (match s.part with | .am7240 => 3 | .am7220 => 1), s) else takeTurn s

/-- R389: a core leaves service. -/
def coreOut (s : State) (c : Nat) : State :=
  let s := { s with cry := { s.cry with coreBad := maskSet s.cry.coreBad c, firstOut := if s.cry.coreBad = 0 then some c else s.cry.firstOut } }
  ((s.setRbit .CRY_STATUS c false).flag .CRY_EVENT .CRY_IRQ_EN 1).emitIf (s.rbit .CRY_CTRL 0) 0xA1 c 0

/-- R388: the checker lane of core `c` disagrees in work of kind `k` (1 MACsec, 2 XTS, 3 CMAC, 4 key work). -/
def laneMismatch (s : State) (c k : Nat) : State :=
  let s := s.satInc .CRY_CORE_STATUS (8 * c) 8
  let s := s.flag .CRY_EVENT .CRY_IRQ_EN 0
  s.emitIf (s.rbit .CRY_CTRL 0) 0xA0 c k

/-! ### Slots (R399 to R402) -/

/-- Bits of the blob's USE field (R397). -/
def useMacsec : Nat := 0
/-- USE bit of an XTS key. -/
def useXts : Nat := 1
/-- USE bit of a CMAC key. -/
def useCmac : Nat := 2
/-- USE bit of a wrapping key. -/
def useWrap : Nat := 3

/-- R399, R400: a load of slot `k` is requested unless one waits. -/
def requestLoad (s : State) (k : Nat) : State :=
  if s.cry.loadQ.contains k then s else { s with cry := { s.cry with loadQ := s.cry.loadQ ++ [k] } }

/-- A slot whose copies are zero. -/
def Slot.emptied (v : Slot) (st : SlotState) (a : KeyRec) : Slot :=
  { v with st, attr := a, key := [], chk := 0, attr1 := a, key1 := [], chk1 := 0 }

/-- R400: a slot with a key, its attributes and SLOT_CHK in both copies. -/
def Slot.filled (v : Slot) (a : KeyRec) (key : List Byte) : Slot :=
  { v with st := .ready, attr := a, key, chk := slotChk key, attr1 := a, key1 := key, chk1 := slotChk key }

/-- R401: both copies of a slot fail: it becomes UNUSABLE and is to be reloaded from its record. -/
def slotBad (s : State) (k : Nat) : State :=
  let s := s.setSlot k ((s.slot k).emptied .unusable (s.slot k).attr)
  let s := s.flag .CRY_EVENT .CRY_IRQ_EN 2
  let s := s.emitIf (s.rbit .CRY_CTRL 0) 0xA2 k 0
  requestLoad s k

/-- R401: copy 0 is rewritten from copy 1. -/
def Slot.mend0 (v : Slot) : Slot := { v with attr := v.attr1, key := v.key1, chk := v.chk1 }

/-- R401: copy 1 is rewritten from copy 0. -/
def Slot.mend1 (v : Slot) : Slot := { v with attr1 := v.attr, key1 := v.key, chk1 := v.chk }

/-- R399, R401: a use of slot `k` for `use`: its key when the slot is READY and permits the use; a use of a STORED slot starts a
load. `rep` says what reading the copies met: copy 0 with an uncorrectable word is passed over for copy 1 and rewritten. -/
def useSlot (s : State) (k use : Nat) (rep : CipherReport) : Option (List Byte) × State :=
  match (s.slot k).st with
  | .ready =>
    if rep.bothBad then (none, slotBad s k)
    else
      let s := if rep.copyBad then s.setSlot k (s.slot k).mend0 else s
      if maskBit (s.slot k).attr.use use then (some (s.slot k).key, s) else (none, s)
  | .stored => (none, requestLoad (s.setSlot k { s.slot k with st := .loading }) k)
  | _ => (none, s)

/-! ### MACsec (R55 to R57, R390 to R392) -/

/-- R390: the GCM nonce of a packet number. -/
def gcmNonce (xpn : Bool) (sci ssci salt pn : Nat) : List Byte :=
  if xpn then beBytes ((ssci * 2 ^ 64 + pn) ^^^ salt) 12 else beBytes sci 8 ++ beBytes pn 4

/-- Bytes of a frame's user data that stay in clear (PORT_SECY_CFG.CONF_OFFSET). The code 3 is reserved and the manual gives it no
effect; it acts as 0 bytes (DESIGN CHOICE, log entry 76). -/
def confOffset (code : Nat) : Nat := match code with | 1 => 30 | 2 => 50 | _ => 0

/-- The 96-bit SALT held in three registers. -/
def State.salt (s : State) (r0 r1 r2 : Reg) (i j : Nat) : Nat :=
  (s.reg r0 i j).toNat + 2 ^ 32 * (s.reg r1 i j).toNat + 2 ^ 64 * (s.reg r2 i j).toNat

/-- What the SecY does with a frame to transmit. -/
inductive SecTx where
  | plain                       -- not protected
  | sent (bytes : List Byte)    -- the protected frame, without FCS
  | mismatch
  | dropped
deriving DecidableEq, Repr

/-- The SecTAG of a transmitted frame (IEEE 802.1AE; PRESUMED, log entry 16). -/
def secTag (sc conf : Bool) (an len pn sci : Nat) : List Byte :=
  beBytes 0x88E5 2 ++ [BitVec.ofNat 8 ((if sc then 32 else 0) + (if conf then 12 else 0) + an),
    BitVec.ofNat 8 (if len < 48 then len else 0)] ++ beBytes (pn % 2 ^ 32) 4 ++ (if sc then beBytes sci 8 else [])

/-- R391: NEXT_PN of a transmit SA moves from `old` to `new`; when it reaches THRESH, PN_NEAR is set. -/
def pnReach (s : State) (i a old new : Nat) : State :=
  let th := s.reg64 .CRY_TXSA_THRESH_LO .CRY_TXSA_THRESH_HI i a
  if old < th ∧ th ≤ new then (s.flag .CRY_EVENT .CRY_IRQ_EN 4).emitIf (s.rbit .CRY_CTRL 0) 0xA3 i a else s

/-- R391: MACsec on the copy that port `n` starts. -/
def macsecTx (s : State) (n : Nat) (bytes : List Byte) (rep : CipherReport) : SecTx × State :=
  match secyOf n with
  | none => (.plain, s)
  | some i =>
    if !s.rbit .PORT_SECY_CFG 0 n || !s.rbit .PORT_SECY_CFG 3 n || s.bypass n (etherOf bytes) then (.plain, s)
    else
      let an := s.rfld .CRY_TXSC_CFG 1 2 i
      let k := s.rfld .CRY_TXSA_CFG 1 6 i an
      let xpn := s.rbit .PORT_SECY_CFG 7 n
      let pn := s.reg64 .CRY_TXSA_NEXT_PN_LO .CRY_TXSA_NEXT_PN_HI i an
      let lim := if xpn then 2 ^ 64 - 1 else 2 ^ 32 - 1
      if !s.rbit .CRY_TXSC_CFG 0 i || !s.rbit .CRY_TXSA_CFG 0 i an then (.dropped, s.bump (.secy i .KEY_NA))
      else if lim ≤ pn then (.dropped, (s.bump (.secy i .TX_PN_EXHAUSTED)).flag .CRY_EVENT .CRY_IRQ_EN 5)
      else
        match useSlot s k useMacsec rep with
        | (none, s) => (.dropped, s.bump (.secy i .KEY_NA))
        | (some key, s) =>
          match secyCore s i with
          | (none, _, s) => (.dropped, s.bump (.secy i .CIPHER_BUSY))
          | (some core, shared, s) =>
            if shared && rep.busy then (.dropped, s.bump (.secy i .CIPHER_BUSY))
            else
              let s := pnReach (s.setReg64 .CRY_TXSA_NEXT_PN_LO .CRY_TXSA_NEXT_PN_HI (pn + 1) i an) i an pn (pn + 1)
              if rep.mismatch then (.mismatch, laneMismatch s core 1)
              else
                let conf := s.rbit .PORT_SECY_CFG 4 n
                let sc := s.rbit .PORT_SECY_CFG 8 n
                let sci := s.reg64 .CRY_TXSC_SCI_LO .CRY_TXSC_SCI_HI i
                let data := bytes.drop 12
                let off := if conf then confOffset (s.rfld .PORT_SECY_CFG 5 2 n) else data.length
                let tag := secTag sc conf an data.length pn sci
                let nonce := gcmNonce xpn sci (s.reg .CRY_TXSA_SSCI i an).toNat
                  (s.salt .CRY_TXSA_SALT0 .CRY_TXSA_SALT1 .CRY_TXSA_SALT2 i an) pn
                let clear := bytes.take 12 ++ tag ++ data.take off
                (.sent (clear ++ gcm key nonce clear (data.drop off)), s.bump (.secy i .TX_PROTECTED))

/-- What the SecY does with a received frame. -/
inductive SecRx where
  | pass (bytes : List Byte)   -- on to the holding area, without FCS
  | discard
deriving DecidableEq, Repr

/-- A SecTAG as received. -/
structure SecTag where
  sc : Bool
  conf : Bool
  an : Nat
  pn : Nat
  sci : Nat
  len : Nat        -- bytes of the tag with its Ethertype
  sl : Nat         -- short length: bytes of secure data when fewer than 48
deriving DecidableEq, Repr

/-- Reads the SecTAG of a frame, if it has one. -/
def readSecTag (bytes : List Byte) : Option SecTag :=
  if beNat bytes 12 2 = 0x88E5 then
    let t := (byteAt bytes 14).toNat
    let sc := t.testBit 5
    some { sc, conf := t.testBit 3, an := t % 4, pn := beNat bytes 16 4, sci := if sc then beNat bytes 20 8 else 0,
           len := if sc then 16 else 8, sl := (byteAt bytes 15).toNat % 64 }
  else none

/-- R392: the 64-bit packet number that a 32-bit one stands for (IEEE 802.1AEbw; PRESUMED, log entry 16). -/
def fullPn (xpn : Bool) (pn next : Nat) : Nat :=
  if !xpn then pn
  else
    let hi := next / 2 ^ 32
    if (next % 2 ^ 32).testBit 31 ∧ !pn.testBit 31 then ((hi + 1) % 2 ^ 32) * 2 ^ 32 + pn else hi * 2 ^ 32 + pn

/-- The secure data of a tagged frame and its ICV. -/
def secBody (bytes : List Byte) (t : SecTag) : List Byte × List Byte :=
  let b := bytes.drop (12 + t.len)
  let b := if t.sl = 0 then b else b.take (t.sl + 16)
  (b.take (b.length - 16), b.drop (b.length - 16))

/-- What a receive SA gives for a tagged frame: the key of its slot, the nonce and the packet number. -/
structure RxKey where
  sa : Nat
  key : List Byte
  nonce : List Byte
  pn : Nat
deriving DecidableEq, Repr

/-- R392: the receive SC of a frame's SCI. A frame without an SCI is taken to belong to the first SC in use (PRESUMED, log entry 16). -/
def State.rxSc (s : State) (i : Nat) (t : SecTag) : Option Nat :=
  (List.range 4).find? (fun c => s.rbit .CRY_RXSC_CFG 0 i c && (!t.sc || s.reg64 .CRY_RXSC_SCI_LO .CRY_RXSC_SCI_HI i c == t.sci))

/-- R390, R392: the nonce and packet number of a frame under SA `a` of SC `c`. -/
def State.rxKey (s : State) (n i c : Nat) (t : SecTag) (key : List Byte) : RxKey :=
  let a := 4 * c + t.an
  let xpn := s.rbit .PORT_SECY_CFG 7 n
  let pn := fullPn xpn t.pn (s.reg64 .CRY_RXSA_NEXT_PN_LO .CRY_RXSA_NEXT_PN_HI i a)
  { sa := a, key, pn,
    nonce := gcmNonce xpn (s.reg64 .CRY_RXSC_SCI_LO .CRY_RXSC_SCI_HI i c) (s.reg .CRY_RXSA_SSCI i a).toNat
      (s.salt .CRY_RXSA_SALT0 .CRY_RXSA_SALT1 .CRY_RXSA_SALT2 i a) pn }

/-- Where the encrypted part of a frame's secure data begins. -/
def State.secOff (s : State) (n : Nat) (t : SecTag) (data : List Byte) : Nat :=
  if t.conf then confOffset (s.rfld .PORT_SECY_CFG 5 2 n) else data.length

/-- R55: the frame without SecTAG and ICV, in plaintext under a key. -/
def State.secPlain (s : State) (n : Nat) (bytes : List Byte) (t : SecTag) (k : RxKey) : List Byte :=
  let data := (secBody bytes t).1
  let off := s.secOff n t data
  bytes.take 12 ++ data.take off ++ gcmOpen k.key k.nonce (data.drop off)

/-- R390, R392: does the ICV of a frame hold. -/
def State.icvHolds (s : State) (n : Nat) (bytes : List Byte) (t : SecTag) (k : RxKey) : Bool :=
  let x := secBody bytes t
  let off := s.secOff n t x.1
  gcmIcv k.key k.nonce (bytes.take (12 + t.len) ++ x.1.take off) (x.1.drop off) == x.2

/-- What becomes of a tagged frame in validation: its plaintext; or it fails, with the key of its SA if that could be used; or the cipher
engine takes it out (R388, R389). -/
inductive RxVal where
  | ok (plain : List Byte)
  | fail (k : Option RxKey)
  | mismatch
  | busy
deriving DecidableEq, Repr

/-- R392: validates a tagged frame. -/
def macsecValidate (s : State) (n i : Nat) (bytes : List Byte) (t : SecTag) (rep : CipherReport) : RxVal × State :=
  match s.rxSc i t with
  | none => (.fail none, s)
  | some c =>
    let a := 4 * c + t.an
    if !s.rbit .CRY_RXSA_CFG 0 i a then (.fail none, s)
    else
      match useSlot s (s.rfld .CRY_RXSA_CFG 1 6 i a) useMacsec rep with
      | (none, s) => (.fail none, s.bump (.secy i .KEY_NA))
      | (some key, s) =>
        match secyCore s i with
        | (none, _, s) => (.busy, s)
        | (some core, shared, s) =>
          if shared && rep.busy then (.busy, s)
          else if rep.mismatch then (.mismatch, laneMismatch s core 1)
          else
            let k := s.rxKey n i c t key
            let next := s.reg64 .CRY_RXSA_NEXT_PN_LO .CRY_RXSA_NEXT_PN_HI i a
            let replay := s.rbit .PORT_SECY_CFG 9 n && decide (k.pn + (s.reg .PORT_SECY_REPLAY n).toNat < next)
            if replay || !s.icvHolds n bytes t k then (.fail (some k), s)
            else
              let s := if next < k.pn + 1 then s.setReg64 .CRY_RXSA_NEXT_PN_LO .CRY_RXSA_NEXT_PN_HI (k.pn + 1) i a else s
              (.ok (s.secPlain n bytes t k), s.bump (.secy i .RX_VALIDATED))

/-- `n` bytes of free values (log entry 1). -/
def freshBytes (s : State) (n : Nat) : List Byte × State :=
  let k := (n + 3) / 4
  ((wordsBytes ((List.range k).map (fun i => Config.freeWord (s.free + i)))).take n, { s with free := s.free + k })

/-- R55, R57: a frame that passes without validation loses its SecTAG and ICV all the same; encrypted user data is given in plaintext
under the SA's key, and without one it is a free value (log entry 17). -/
def secUnchecked (s : State) (n : Nat) (bytes : List Byte) (k : Option RxKey) : List Byte × State :=
  match readSecTag bytes with
  | none => (bytes, s)
  | some t =>
    match t.conf, k with
    | true, none =>
      let data := (secBody bytes t).1
      let off := s.secOff n t data
      let x := freshBytes s (data.length - off)
      (bytes.take 12 ++ data.take off ++ x.1, x.2)
    | false, none => (bytes.take 12 ++ (secBody bytes t).1, s)
    | _, some k => (s.secPlain n bytes t k, s)

/-- R57: the key that a frame's SA would use, where VALIDATE is Disabled and nothing is checked. -/
def State.rxKeyOf (s : State) (n i : Nat) (bytes : List Byte) : Option RxKey :=
  match readSecTag bytes with
  | none => none
  | some t => match s.rxSc i t with
    | none => none
    | some c =>
      let v := s.slot (s.rfld .CRY_RXSA_CFG 1 6 i (4 * c + t.an))
      if s.rbit .CRY_RXSA_CFG 0 i (4 * c + t.an) && v.st == .ready && maskBit v.attr.use useMacsec then some (s.rxKey n i c t v.key) else none

/-- R55, R57, R388, R389, R392: the SecY on a received frame (without FCS). VALIDATE = 3 is reserved and the manual gives it no effect; it
acts as Strict (DESIGN CHOICE, log entry 76). -/
def macsecRx (s : State) (n : Nat) (bytes : List Byte) (rep : CipherReport) : SecRx × State :=
  match secyOf n with
  | none => (.pass bytes, s)
  | some i =>
    if !s.rbit .PORT_SECY_CFG 0 n then (.pass bytes, s)
    else if s.bypass n (etherOf bytes) then (.pass bytes, s.bump (.secy i .RX_BYPASS))
    else
      let mode := s.rfld .PORT_SECY_CFG 1 2 n
      if mode = 0 then let x := secUnchecked s n bytes (s.rxKeyOf n i bytes); (.pass x.1, x.2)
      else
        match (match readSecTag bytes with
          | none => ((.fail none, s) : RxVal × State)
          | some t => macsecValidate s n i bytes t rep) with
        | (.ok p, s) => (.pass p, s)
        | (.mismatch, s) => (.discard, s.bump (.port n .CIPHER_MISMATCH))
        | (.busy, s) => (.discard, s.bump (.secy i .CIPHER_BUSY))
        | (.fail k, s) =>
          if mode = 1 then let x := secUnchecked s n bytes k; (.pass x.1, x.2.bump (.port n .SECY_UNCHECKED))
          else (.discard, s.bump (.port n .SECY_DISCARD))

/-- CORE_FAILED (R389): a core whose count has reached 3 in the running health window leaves service. -/
def execCoreFailed (c : Fin 4) (s : State) : Ans :=
  onDie s (fun s =>
    if s.coreOk c ∧ 3 ≤ s.rfld .CRY_CORE_STATUS (8 * c) 8 then coreOut s c
    else s)

/-- R393: the register of an SA write that the address names: whether the SA is VALID and how the register behaves. -/
def saKind (r : Reg) : Nat :=
  match r with
  | .CRY_TXSA_CFG => 1 | .CRY_RXSA_CFG => 1
  | .CRY_TXSA_SSCI => 2 | .CRY_TXSA_SALT0 => 2 | .CRY_TXSA_SALT1 => 2 | .CRY_TXSA_SALT2 => 2
  | .CRY_RXSA_SSCI => 2 | .CRY_RXSA_SALT0 => 2 | .CRY_RXSA_SALT1 => 2 | .CRY_RXSA_SALT2 => 2
  | .CRY_TXSA_NEXT_PN_LO => 3 | .CRY_TXSA_NEXT_PN_HI => 3
  | _ => 0

/-- Is a register one of a receive SA. -/
def saRx (r : Reg) : Bool :=
  match r with
  | .CRY_RXSA_CFG => true | .CRY_RXSA_SSCI => true | .CRY_RXSA_SALT0 => true | .CRY_RXSA_SALT1 => true
  | .CRY_RXSA_SALT2 => true | _ => false

/-- R393: a write to an SA register: with VALID = 1, SLOT, SSCI and SALT keep their values; a transmit NEXT_PN takes only a
higher value. -/
def saRegWrite (s : State) (r : Reg) (i j : Nat) (w : Word) : State :=
  let v := w &&& r.row.mask
  let valid := if saRx r then s.rbit .CRY_RXSA_CFG 0 i j else s.rbit .CRY_TXSA_CFG 0 i j
  match saKind r with
  | 1 => if valid then s.setRbit r 0 (bit v 0) i j else s.setReg r v i j
  | 2 => if valid then s else s.setReg r v i j
  | 3 =>
    let cur := s.reg64 .CRY_TXSA_NEXT_PN_LO .CRY_TXSA_NEXT_PN_HI i j
    let new := if r = .CRY_TXSA_NEXT_PN_LO then cur / 2 ^ 32 * 2 ^ 32 + v.toNat else v.toNat * 2 ^ 32 + cur % 2 ^ 32
    if cur < new then pnReach (s.setReg r v i j) i j cur new else s
  | _ => s.setReg r v i j

end Sys2Proof.Machine
end

