-- ==== Sys2Proof/Machine/Parse.lean ====
section
/-! DEFINITION. The parse graph and the key vector (R59 to R74), and the command PARSE. -/

namespace Sys2Proof.Machine

/-- Causes of a parse drop, with the detail codes of R366 and R518. -/
inductive ParseDrop where
  | short | badHdr | badNext | depth
deriving DecidableEq, Repr

/-- Code of a parse drop in a PARSE_DROP record and a completion. -/
def ParseDrop.code : ParseDrop → Nat
  | .short => 1 | .badHdr => 2 | .badNext => 3 | .depth => 4

/-- Port counter of a parse drop (R70). -/
def ParseDrop.ctr : ParseDrop → PortCtr
  | .short => .SHORT | .badHdr => .BAD_HDR | .badNext => .BAD_NEXT | .depth => .DEPTH

/-- What the walk carries from node to node: the key-vector bytes 4 to 63, PRESENT, LAST_NODE, and where the header of the
node that set PRESENT.VIDEO ends (R422), and which byte each node that set a PRESENT bit starts at. -/
structure Walk where
  key : List Byte
  present : Nat
  last : Nat
  video : Option Nat
  marks : List (Nat × Nat)
deriving DecidableEq, Repr

/-- The end of a walk: a drop, or a key vector with DEEP. -/
inductive WalkEnd where
  | drop (c : ParseDrop)
  | done (w : Walk) (deep : Bool)
deriving DecidableEq, Repr

/-- Does a valid transition entry name node `i`. -/
def State.parNamed (s : State) (i : Nat) : Bool :=
  (List.range 256).any (fun j => s.rbit .PAR_TRANS_CTL 31 j && s.rfld .PAR_TRANS_CTL 0 6 j == i)

/-- R62: the next code of node `i` for a selector value: the lowest-numbered matching entry, else DEFAULT_NEXT. -/
def State.parNext (s : State) (i sel : Nat) (wide : Bool) : Nat :=
  let hit := (List.range 256).find? (fun j =>
    s.rbit .PAR_TRANS_CTL 31 j && s.rfld .PAR_TRANS_CTL 0 6 j == i &&
      (let v := s.reg .PAR_TRANS_VAL j
       let m := if wide then fld v 16 16 else fld v 16 8
       (sel &&& m) == ((fld v 0 16) &&& m)))
  match hit with
  | some j => s.rfld .PAR_TRANS_CTL 8 7 j
  | none => s.rfld .PAR_NODE_SEL 8 7 i

/-- Step 5 of R60: extract `e` of node `i` at node start `st`. -/
def State.parExt (s : State) (i st e : Nat) (bytes key : List Byte) : List Byte :=
  let x := s.reg .PAR_NODE_EXT i e
  if bit x 7 then
    let n := fld x 8 4 + 1
    let d := fld x 18 6
    if d < 4 ∨ 64 < d + n then key else overlay key d (slice bytes (st + fld x 0 7) n)
  else key

/-- Ends of the bytes that a node's enabled extracts read, from the node's start. -/
def State.parExtEnd (s : State) (i : Nat) : Nat :=
  (List.range 4).foldl (fun a e =>
    let x := s.reg .PAR_NODE_EXT i e
    if bit x 7 then max a (fld x 0 7 + fld x 8 4 + 1) else a) 0

/-- R60 to R63: the walk from node `i` at byte `st`; `fuel` nodes may still be visited. -/
def State.parWalk (s : State) (bytes : List Byte) : Nat → Nat → Nat → Walk → WalkEnd
  | 0, _, _, _ => .drop .depth
  | fuel + 1, i, st, w =>
    let ln := s.reg .PAR_NODE_LEN i
    let sl := s.reg .PAR_NODE_SEL i
    let var := bit ln 15
    let lb := fld ln 8 7
    if var && decide (bytes.length < st + lb + 1) then .drop .short
    else if var && decide (256 < st + lb + 1) then .done w true
    else
      let b := (byteAt bytes (st + lb)).toNat
      let l := fld ln 0 8 + (if var then ((b >>> fld ln 16 3) &&& fld ln 22 8) <<< fld ln 19 3 else 0)
      let named := s.parNamed i
      let wide := bit sl 7
      let selEnd := if named then fld sl 0 7 + (if wide then 2 else 1) else 0
      let e := st + max (max l (if var then lb + 1 else 0)) (max selEnd (s.parExtEnd i))
      if bytes.length < e then .drop .short
      else if 256 < e then .done w true
      else if l < fld sl 24 8 then .drop .badHdr
      else
        let key := (List.range 4).foldl (fun k x => s.parExt i st x bytes k) w.key
        let w : Walk := { key, present := if bit sl 15 then maskSet w.present (fld sl 16 4) else w.present, last := i,
                          video := if bit sl 15 && (fld sl 16 4 == 10) then some (st + l) else w.video,
                          marks := if bit sl 15 then (fld sl 16 4, st) :: w.marks else w.marks }
        let next :=
          if named then s.parNext i (if wide then beNat bytes (st + fld sl 0 7) 2
                                     else (byteAt bytes (st + fld sl 0 7)).toNat) wide
          else fld sl 8 7
        if next < 64 then s.parWalk bytes fuel next (st + l) w
        else if next = 64 then .done w false
        else .drop .badNext

/-- R66: the key vector of a finished walk. DESIGN CHOICE (log entry 83): LAST_NODE of a walk that ends DEEP at its first node, no node's
extracts applied, is 0. -/
def keyVector (port : Nat) (w : Walk) (deep : Bool) : List Byte :=
  overlay w.key 0
    [BitVec.ofNat 8 (port + if deep then 32 else 0), BitVec.ofNat 8 w.last,
     BitVec.ofNat 8 w.present, BitVec.ofNat 8 (w.present / 256)]

/-- R59, R60, R64: the parse of a frame of port `n`: a drop, or the key vector with the end of the video header
and the start of each header found. -/
def State.parse (s : State) (n : Nat) (bytes : List Byte) : ParseDrop ⊕ (List Byte × Option Nat × List (Nat × Nat)) :=
  match s.parWalk bytes 16 (s.rfld .PAR_PORT_START 0 6 n) 0
      { key := List.replicate 64 0, present := 0, last := 0, video := none, marks := [] } with
  | .drop c => .inl c
  | .done w deep => .inr (keyVector n w deep, w.video, w.marks)

/-- PRESENT of a key vector. -/
def present (key : List Byte) : Nat := leNat key 2 2

/-- R67: is the packet of a key vector the last of its picture. DEDUCED (log entry 84): byte 34 decides whatever PRESENT says, so also
where an IP walk has put an address byte there. -/
def State.eop (s : State) (key : List Byte) : Bool :=
  ((byteAt key 34).toNat &&& s.rfld .PAR_PIC_MARK 0 8) != 0

/-- R70: a held frame dropped by the parse graph. -/
def parseDrop (s : State) (h : Held) (c : ParseDrop) : State :=
  let s := dropFrame s h 3 c.code
  let s := s.bump (.port h.port c.ctr)
  let p := s.port h.port
  if maskBit p.pdRecs c.code then s
  else (s.setPort h.port { p with pdRecs := maskSet p.pdRecs c.code }).emitIf (s.rbit .PAR_CTRL 0) 0x10 h.port c.code

/-- R72: the held frame is parsed under the graph in force, or dropped. -/
def parseHeld (s : State) (h : Held) : State :=
  match s.parse h.port h.bytes with
  | .inl c => parseDrop s h c
  | .inr k => s.setHeld { h with key := some k.1, video := k.2.1, marks := k.2.2, bank := s.graphEpoch }

/-- R169: an uncorrectable error in a frame's blocks before its decision drops it. -/
def holdDrop (s : State) (h : Held) : State := (dropFrame s h 4 15).bump (.port h.port .HOLD_ECC)

/-- PARSE (R60): a held frame not yet parsed is walked; its blocks are read (R169, R188). -/
def execParse (f : Nat) (ecc : HoldEcc) (s : State) : Ans :=
  onDie s (fun s => match s.heldOf f with
    | none => s
    | some h => match h.key, ecc with
      | some _, _ => s
      | none, .ok => parseHeld s h
      | none, .ce => parseHeld (s.bump (.device .HOLD_CE)) h
      | none, .bad => holdDrop s h)

end Sys2Proof.Machine
end

