-- ==== Sys2Proof/Machine/Tables.lean ====
section
/-! DEFINITION. The tables of a decision plane: memories with their record of changes for the state copy, cuckoo placement,
the FDB with learning and sweeping, the stream, VLAN, group and route tables (R75 to R130, R241). -/

namespace Sys2Proof.Machine

/-! ### Planes and their memories -/

/-- The key of an entry in a plane's memories. -/
def Space.key (sp : Space) (i : Nat) : Nat := sp.ctorIdx * 2 ^ 20 + i

/-- An entry of a plane; an entry never written is all zeros (R127). -/
def Plane.rd (p : Plane) (sp : Space) (i : Nat) : List Word := SMap.get [] p.mem (sp.key i)

/-- An entry of a plane takes its words; an entry of zeros is not listed. -/
def Plane.wr (p : Plane) (k : Nat) (ws : List Word) : Plane :=
  { p with mem := SMap.set [] p.mem k (if ws.all (· == 0) then [] else ws) }

/-- The listed entries of a memory, by index. -/
def Plane.ents (p : Plane) (sp : Space) : List (Nat × List Word) :=
  p.mem.filterMap (fun e => if e.1 / 2 ^ 20 = sp.ctorIdx then some (e.1 % 2 ^ 20, e.2) else none)

/-- Which plane does the work of the ACTIVE plane: false = Twin A. It is the accepted plane (R234); in a planned switchover and in a
tie, where none is accepted, the plane that is ACTIVE; none in the gap of an unplanned one (R249). -/
def State.actId (s : State) : Option Bool :=
  match s.twin.accepted, s.twin.switch with
  | some b, _ => some b
  | none, .gap _ => none
  | none, _ => if s.twin.a.mode = .active then some false else if s.twin.b.mode = .active then some true else none

/-- A plane by name: false = Twin A. -/
def State.plane (s : State) (b : Bool) : Plane := if b then s.twin.b else s.twin.a

/-- A plane replaced. -/
def State.setPlane (s : State) (b : Bool) (p : Plane) : State :=
  if b then { s with twin := { s.twin with b := p } } else { s with twin := { s.twin with a := p } }

/-- The ACTIVE plane; Twin A's memories when none is. -/
def State.act (s : State) : Plane := s.plane (s.actId.getD false)

/-- The ACTIVE plane replaced. -/
def State.setAct (s : State) (p : Plane) : State := s.setPlane (s.actId.getD false) p

/-- R241: an entry changed in this beat is to be sent, with the entries `parts` in the same record; several changes of one entry make
one record. -/
def State.mark (s : State) (k : Nat) (exact : Bool) (bytes : Nat) (cmd : Bool) (parts : List Nat := []) : State :=
  let d := s.twin.dirty
  let d := if d.any (fun e => e.key == k) then
      d.map (fun e => if e.key = k then
        { key := k, exact := e.exact || exact, bytes := max e.bytes bytes, cmd := e.cmd || cmd, parts := (e.parts ++ parts).eraseDups } else e)
    else d ++ [{ key := k, exact, bytes, cmd, parts }]
  { s with twin := { s.twin with dirty := d } }

/-- An entry of the ACTIVE plane is written; another entry's record carries it. -/
def State.twr (s : State) (sp : Space) (i : Nat) (ws : List Word) : State := s.setAct (s.act.wr (sp.key i) ws)

/-- R241: where the planes hold the prepared value of the register at address `a`. -/
def prepKey (a : Nat) : Nat := 2 ^ 31 + a

/-- R241: a prepared register write reaches the ACTIVE plane, with its record; while no plane is ACTIVE it reaches both. -/
def State.planePrep (s : State) (a : Nat) (v : Word) : State :=
  if s.actId.isSome then (s.setAct (s.act.wr (prepKey a) [v, 1])).mark (prepKey a) true 16 false
  else { s with twin := { s.twin with a := s.twin.a.wr (prepKey a) [v, 1], b := s.twin.b.wr (prepKey a) [v, 1] } }

/-- The planes hold the prepared registers `l` and no others. -/
def Twin.setPrep (t : Twin) (l : SMap Word) : Twin :=
  let f := fun (p : Plane) => l.foldl (fun (p : Plane) e => p.wr (prepKey e.1) [e.2, 1]) { p with mem := SMap.keep (fun k => decide (k < 2 ^ 31)) p.mem }
  let q := fun (l : List CopyRec) => l.filter (fun r => r.parts.all (fun e => decide (e.1 < 2 ^ 31)))
  { t with a := f t.a, b := f t.b, exactQ := q t.exactQ, dirty := t.dirty.filter (fun e => decide (e.key < 2 ^ 31)) }

/-- An entry of the ACTIVE plane. -/
def State.tget (s : State) (sp : Space) (i : Nat) : List Word := s.act.rd sp i

/-- An entry of the ACTIVE plane is written, with the record that it makes. -/
def State.tset (s : State) (sp : Space) (i : Nat) (ws : List Word) (exact : Bool) (bytes : Nat) (cmd : Bool := false) : State :=
  (s.setAct (s.act.wr (sp.key i) ws)).mark (sp.key i) exact bytes cmd

/-! ### Cuckoo placement (R83, R86) -/

/-- R83: the bucket index of a key in a way: multiplier, seed, width b. -/
def bucketOf (m sd b : Nat) (ks : List Nat) : Nat :=
  (ks.foldl (fun x k => ((x ^^^ (k % 2 ^ 64)) * m) % 2 ^ 64) sd) >>> (64 - b)

/-- M0 of R83. -/
def mul0 : Nat := 0x9E3779B97F4A7C15
/-- M1 of R83. -/
def mul1 : Nat := 0xD6E8FEB86659FD93

/-- A cuckoo table: its memory, bucket index width, number of stash entries, seeds, key words of an entry, whether an
entry is valid, and whether it may not be displaced. -/
structure Cuckoo where
  sp : Space
  b : Nat
  stash : Nat
  s0 : Nat
  s1 : Nat
  keys : List Word → List Nat
  valid : List Word → Bool
  fixed : List Word → Bool

/-- First index of way `w`. -/
def Cuckoo.wayBase (t : Cuckoo) (w : Nat) : Nat := w * (4 * 2 ^ t.b)
/-- First stash index. -/
def Cuckoo.stashBase (t : Cuckoo) : Nat := 2 * (4 * 2 ^ t.b)
/-- First index of the bucket of an entry in way `w`. -/
def Cuckoo.at (t : Cuckoo) (w : Nat) (e : List Word) : Nat :=
  t.wayBase w + 4 * (if w = 0 then bucketOf mul0 t.s0 t.b (t.keys e) else bucketOf mul1 t.s1 t.b (t.keys e))

/-- A free slot among `n` indices from `i`. -/
def Cuckoo.free? (t : Cuckoo) (p : Plane) (i n : Nat) : Option Nat :=
  ((List.range n).map (i + ·)).find? (fun j => !t.valid (p.rd t.sp j))

/-- The victim of a step: from slot (step − 1) modulo 4 round the bucket, the first slot not on the path and free to move. -/
def Cuckoo.victim? (t : Cuckoo) (p : Plane) (base step : Nat) (path : List (Nat × List Word)) : Option Nat :=
  ((List.range 4).map (fun k => base + (step + k) % 4)).find? (fun j =>
    !path.any (fun e => e.1 == j) && !t.fixed (p.rd t.sp j))

/-- The walk of R86: the writes in the order they are made, or none when it must end at the stash. -/
def Cuckoo.walk (t : Cuckoo) (p : Plane) : Nat → Nat → Nat → List Word → List (Nat × List Word) → Option (List (Nat × List Word))
  | 0, _, _, _, _ => none
  | fuel + 1, step, w, v, path =>
    match t.victim? p (t.at w v) step path with
    | none => none
    | some j =>
      let path := path ++ [(j, v)]
      let v := p.rd t.sp j
      let w := 1 - w
      match t.free? p (t.at w v) 4 with
      | some f => some ((f, v) :: path.reverse)
      | none => t.walk p fuel (step + 1) w v path

/-- R86: the writes that place an entry, the index where it lands and the number of relocations; none = NO_ROOM. -/
def Cuckoo.place (t : Cuckoo) (p : Plane) (e : List Word) (useStash : Bool) : Option (List (Nat × List Word) × Nat × Nat) :=
  match t.free? p (t.at 0 e) 4 with
  | some f => some ([(f, e)], f, 0)
  | none => match t.free? p (t.at 1 e) 4 with
    | some f => some ([(f, e)], f, 0)
    | none => match t.walk p 32 0 0 e [] with
      | some ws => some (ws, (ws.getLast?.map (·.1)).getD 0, ws.length - 1)
      | none =>
        if useStash then match t.free? p t.stashBase t.stash with
          | some f => some ([(f, e)], f, 0)
          | none => none
        else none

/-- The candidate indices of a key: its two buckets and the stash. -/
def Cuckoo.cands (t : Cuckoo) (e : List Word) : List Nat :=
  (List.range 4).map (t.at 0 e + ·) ++ (List.range 4).map (t.at 1 e + ·) ++ (List.range t.stash).map (t.stashBase + ·)

/-- A list of writes to a cuckoo table whose changes another entry's record carries (R107). -/
def rawWrites (s : State) (sp : Space) (l : List (Nat × List Word)) : State := l.foldl (fun s e => s.twr sp e.1 e.2) s

/-- A list of writes to a cuckoo table. -/
def writes (s : State) (sp : Space) (l : List (Nat × List Word)) (bytes : Nat) (cmd : Bool) : State :=
  l.foldl (fun s e => s.tset sp e.1 e.2 true bytes cmd) s

/-! ### The FDB (R81 to R103) -/

/-- Width b of the FDB's bucket index (R81). -/
def State.fdbB (s : State) : Nat := match s.part with | .am7240 => 11 | .am7220 => 10

/-- Reset seeds of R84, as S0 and S1 in four words. -/
def resetSeeds : List Word := [0x0B2D4F61, 0x5A17C3E9, 0xF4D2B09E, 0xA6E83C16]

/-- Seeds as a plane's memory holds them: a fifth word tells seeds of zero from seeds never set. -/
def seedEnt (ws : List Word) : List Word := (List.range 4).map (wd ws) ++ [1]

/-- The seeds at place `i` of a plane: S0 and S1. -/
def Plane.seeds (p : Plane) (i : Nat) : Nat × Nat :=
  let ws := match p.rd .seed i with | [] => resetSeeds | l => l
  (wnum ws 0 2, wnum ws 2 2)

/-- The seed epoch (R102). -/
def Plane.epoch (p : Plane) : Bool := bit (wd (p.rd .seed 4) 0) 0
/-- MIGRATING (R102). -/
def Plane.migrating (p : Plane) : Bool := bit (wd (p.rd .seed 4) 0) 1

/-- MAC of an FDB entry. -/
def fdbMac (e : List Word) : Nat := (wd e 0).toNat + 2 ^ 32 * wfld e 1 0 16
/-- FID of an FDB entry. -/
def fdbFid (e : List Word) : Nat := wfld e 1 16 12
/-- VALID of an FDB entry. -/
def fdbValid (e : List Word) : Bool := bit (wd e 1) 28
/-- STATIC of an FDB entry. -/
def fdbStatic (e : List Word) : Bool := bit (wd e 1) 29
/-- MC of an FDB entry. -/
def fdbMc (e : List Word) : Bool := bit (wd e 1) 30
/-- DEST of an FDB entry. -/
def fdbDest (e : List Word) : Nat := wfld e 2 0 10
/-- The key words of an FDB entry: FID × 2^48 + MAC. -/
def fdbKeys (e : List Word) : List Nat := [fdbFid e * 2 ^ 48 + fdbMac e]
/-- An entry that carries only a key. -/
def fdbKeyEnt (fid mac : Nat) : List Word :=
  [BitVec.ofNat 32 mac, BitVec.ofNat 32 (mac / 2 ^ 32 % 2 ^ 16 + fid % 4096 * 2 ^ 16), 0]

/-- The FDB as a cuckoo table under the seeds at place `i`. -/
def State.fdbTab (s : State) (i : Nat) : Cuckoo :=
  let p := s.act
  let sd := p.seeds i
  { sp := .fdb, b := s.fdbB, stash := 64, s0 := sd.1, s1 := sd.2, keys := fdbKeys, valid := fdbValid,
    fixed := fun e => p.migrating && (bit (wd e 2) 29 != p.epoch) }

/-- First stash index of the FDB. -/
def State.fdbStash (s : State) : Nat := 8 * 2 ^ s.fdbB
/-- Number of FDB indices. -/
def State.fdbSize (s : State) : Nat := s.fdbStash + 64

/-- The generation of a port (24 = connection table) (R99, R151). -/
def Plane.genOf (p : Plane) (n : Nat) : Nat := wfld (p.rd .gen n) 0 0 4

/-- R85: a learned unicast entry of an older generation counts as absent. -/
def Plane.stale (p : Plane) (e : List Word) : Bool :=
  !fdbStatic e && !fdbMc e && (wfld e 2 17 4 != p.genOf (fdbDest e))

/-- R102: is the entry at index `i` old-placed. -/
def State.oldPlaced (s : State) (i : Nat) (e : List Word) : Bool :=
  fdbValid e && decide (i < s.fdbStash) && (bit (wd e 2) 29 != s.act.epoch)

/-- R85: where a lookup probes. -/
def State.fdbCands (s : State) (fid mac : Nat) : List Nat :=
  let k := fdbKeyEnt fid mac
  (s.fdbTab 0).cands k ++ (if s.act.migrating then ((s.fdbTab 1).cands k).take 8 else [])

/-- R85: the index of a present key. -/
def State.fdbFind (s : State) (fid mac : Nat) : Option Nat :=
  (s.fdbCands fid mac).find? (fun i =>
    let e := s.tget .fdb i
    fdbValid e && (fdbFid e == fid) && (fdbMac e == mac) && !s.act.stale e)

/-- LKP_PORT_LEARNED: present learned entries of a port (R89, R99). -/
def State.learned (s : State) (n : Nat) : Nat :=
  ((s.act.ents .fdb).filter (fun e => fdbValid e.2 && !fdbStatic e.2 && !fdbMc e.2 && (fdbDest e.2 == n) && !s.act.stale e.2)).length

/-- R93: the current aging tick. -/
def State.tickNow (s : State) : Nat := s.beat.toNat / 2 ^ 20 % 256

/-- R103: MIGRATING clears, and the blocked list empties, when no old-placed entry remains. -/
def migrationEnd (s : State) (cmd : Bool := false) : State :=
  if s.act.migrating && !(s.act.ents .fdb).any (fun e => s.oldPlaced e.1 e.2) then
    let s := s.tset .seed 4 [BitVec.ofNat 32 (if s.act.epoch then 1 else 0)] true 16 cmd
    s.setAct { s.act with blocked := [] }
  else s

/-- Clears an FDB slot. -/
def fdbClear (s : State) (i : Nat) (cmd : Bool := false) : State := migrationEnd (s.tset .fdb i [] true 20 cmd) cmd

/-- R90: the learned entry for a key on a port. -/
def State.learnedEnt (s : State) (fid mac port : Nat) : List Word :=
  [BitVec.ofNat 32 mac, BitVec.ofNat 32 (mac / 2 ^ 32 % 2 ^ 16 + fid % 4096 * 2 ^ 16 + 2 ^ 28),
   BitVec.ofNat 32 (port + s.act.genOf port * 2 ^ 17 + s.tickNow * 2 ^ 21 + (if s.act.epoch then 2 ^ 29 else 0))]

/-- Has a port reached a non-zero LKP_PORT_LIMIT (R89). -/
def State.atLimit (s : State) (n : Nat) : Bool :=
  let l := s.rfld .LKP_PORT_LIMIT 0 14 n
  l != 0 && decide (l ≤ s.learned n)

/-- R90: serves one learn request: the write cycles used, and the state. -/
def learnServe (s : State) (r : Learn) : Nat × State :=
  match s.fdbFind r.fid r.mac with
  | some i =>
    let e := s.tget .fdb i
    if fdbStatic e || fdbMc e || (fdbDest e == r.port) then (0, s)
    else if s.atLimit r.port then (0, s.bump (.port r.port .LEARN_LIMIT))
    else
      let e := wsetFld (wsetFld (wsetFld e 2 0 10 r.port) 2 17 4 (s.act.genOf r.port)) 2 21 8 s.tickNow
      (1, s.tset .fdb i e true 20)
  | none =>
    if s.atLimit r.port then (0, s.bump (.port r.port .LEARN_LIMIT))
    else match (s.fdbTab 0).place s.act (s.learnedEnt r.fid r.mac r.port) true with
      | some (ws, _, _) => (ws.length, writes s .fdb ws 20 false)
      | none =>
        let s := s.emit 0x11 0 r.fid [BitVec.ofNat 32 r.mac, BitVec.ofNat 32 (r.mac / 2 ^ 32)]
        if s.act.blocked.length < 16 then (0, s.setAct { s.act with blocked := s.act.blocked ++ [(r.fid, r.mac)] }) else (0, s)

/-- R90, R92: the write cycles that a learn request must find left: 33 where it would be placed, 1 where it is a move. -/
def State.learnNeed (s : State) (r : Learn) : Nat := if (s.fdbFind r.fid r.mac).isSome then 1 else 33

/-- R91, R92: the learning share: requests in order, while the cycles that the next one needs are left. -/
def learnShare (s : State) : Nat → Nat → Nat × State
  | 0, left => (left, s)
  | fuel + 1, left =>
    match s.act.learnQ with
    | [] => (left, s)
    | r :: t =>
      if left < s.learnNeed r then (left, s)
      else
        let x := learnServe (s.setAct { s.act with learnQ := t }) r
        learnShare x.2 fuel (left - x.1)

/-- R87: one stash entry goes back into its buckets when 33 cycles are spare. DESIGN CHOICE (log entry 81): of several valid stash
entries the one of lowest index is tried. -/
def stashReplace (s : State) (left : Nat) : State :=
  if left < 33 then s
  else
    let t := s.fdbTab 0
    match ((s.act.ents .fdb).find? (fun e => decide (s.fdbStash ≤ e.1) && fdbValid e.2)) with
    | none => s
    | some (i, e) =>
      let e := wsetFld e 2 29 1 (if s.act.epoch then 1 else 0)
      match t.place s.act e false with
      | none => s
      | some (ws, _, _) => (writes s .fdb ws 20 false).tset .fdb i [] true 20

/-- R93: is an entry aged. -/
def State.aged (s : State) (e : List Word) : Bool :=
  let lim := s.rfld .LKP_AGE_CFG 0 8
  lim != 0 && !fdbStatic e && !fdbMc e && decide (lim ≤ (s.tickNow + 256 - wfld e 2 21 8) % 256)

/-- R94: the conditional delete, if any, that the sweeper issues for a slot. -/
def State.sweepSlot (s : State) (i : Nat) : Option CondDel :=
  let e := s.tget .fdb i
  if fdbValid e && !fdbStatic e then
    if s.act.stale e then some { slot := i, key := fdbFid e * 2 ^ 48 + fdbMac e, byGen := true, val := wfld e 2 17 4 }
    else if s.aged e then some { slot := i, key := fdbFid e * 2 ^ 48 + fdbMac e, byGen := false, val := wfld e 2 21 8 }
    else none
  else none

/-- R96: a conditional delete clears the slot only if it still holds the same key with the same TS or GEN. -/
def condDelete (s : State) (d : CondDel) : State :=
  let e := s.tget .fdb d.slot
  if fdbValid e && (fdbFid e * 2 ^ 48 + fdbMac e == d.key) && ((if d.byGen then wfld e 2 17 4 else wfld e 2 21 8) == d.val) then
    (fdbClear s d.slot).bump (.port (fdbDest e) .AGED)
  else s

/-- R92: the sweep share of the FDB's slice: up to 64 conditional deletes. -/
def sweepShare (s : State) : State :=
  let l := s.act.delQ.take 64
  let s := s.setAct { s.act with delQ := s.act.delQ.drop 64 }
  l.foldl condDelete s

/-- R99: a plane with one more generation of port `n` (24 = connection table, R152), which is outstanding. -/
def Plane.genNext (p : Plane) (n : Nat) : Plane :=
  let p := p.wr (Space.gen.key n) [BitVec.ofNat 32 ((p.genOf n + 1) % 16)]
  { p with genOut := SMap.upd 0 p.genOut n (· + 1) }

/-- R100: would one more generation of this port make 16 outstanding. -/
def Plane.genFull (p : Plane) (n : Nat) : Bool := decide (15 ≤ SMap.get 0 p.genOut n)

/-- R100: a flush of a plane, at once or deferred to the end of the pass. -/
def Plane.flush (p : Plane) (n : Nat) : Plane :=
  if p.genFull n then { p with flushWait := SMap.set false p.flushWait n true } else p.genNext n

/-- R99: FLUSH_PORT's change of the generation (24 = connection table, R152). -/
def genAdvance (s : State) (n : Nat) (cmd : Bool) : State := (s.setAct (s.act.genNext n)).mark (Space.gen.key n) true 16 cmd

/-- R100: would one more generation of this port make 16 outstanding. -/
def State.genFull (s : State) (n : Nat) : Bool := s.act.genFull n

/-- R100, R152: a flush that LINK_HOLD, CT_FLUSH or a commit asks for: at once, or deferred to the end of the pass. In a switchover
gap it acts on the standby, which answers then and takes over. -/
def flushOrDefer (s : State) (n : Nat) : State :=
  if s.actId.isSome then
    if s.genFull n then s.setAct (s.act.flush n) else genAdvance s n false
  else
    let f := fun (p : Plane) => if p.mode = .standby then p.flush n else p
    { s with twin := { s.twin with a := f s.twin.a, b := f s.twin.b } }

/-- R100: a pass starts: it will retire the generations that are outstanding now. -/
def passStart (s : State) (n : Nat) : State :=
  s.setAct { s.act with genOld := SMap.set 0 s.act.genOld n (SMap.get 0 s.act.genOut n) }

/-- R100: at the end of a pass the generations outstanding at its start retire and a deferred flush is carried out. -/
def passEnd (s : State) (n : Nat) : State :=
  let old := SMap.get 0 s.act.genOld n
  let s := s.setAct { s.act with genOut := SMap.upd 0 s.act.genOut n (· - old), genOld := SMap.set 0 s.act.genOld n 0 }
  if SMap.get false s.act.flushWait n && !s.genFull n then
    genAdvance (s.setAct { s.act with flushWait := SMap.set false s.act.flushWait n false }) n false
  else s

/-- R94: one beat of the FDB sweeper: one bucket, or four stash entries. -/
def fdbSweep (s : State) : State :=
  if !s.rbit .LKP_CTRL 1 then s
  else
    let c := s.act.fdbCur
    let s := if c = 0 then (List.range 24).foldl passStart s else s
    let slots := (List.range 4).map (4 * c + ·)
    let s := s.setAct { s.act with delQ := s.act.delQ ++ slots.filterMap s.sweepSlot }
    if 4 * (c + 1) < s.fdbSize then s.setAct { s.act with fdbCur := c + 1 }
    else (List.range 24).foldl passEnd (s.setAct { s.act with fdbCur := 0 })

/-- R96: a refresh writes TS only if its slot still holds the same key. DEDUCED (log entry 82): TS becomes the tick in which the frame
hit the entry, also where the tick has advanced since. -/
def refreshWrite (s : State) (r : Refresh) : State :=
  let e := s.tget .fdb r.slot
  if fdbValid e && (fdbFid e == r.fid) && (fdbMac e == r.mac) then
    s.tset .fdb r.slot (wsetFld e 2 21 8 r.tick) false 12
  else s

/-- R91, R98: queues a refresh, or counts it skipped at a full queue. -/
def queueRefresh (s : State) (r : Refresh) : State :=
  if s.act.refreshQ.length < 64 then s.setAct { s.act with refreshQ := s.act.refreshQ ++ [r] }
  else s.bump (.device .REFRESH_SKIP)

/-- R22, R90: queues a learn request unless its key is already queued. -/
def queueLearn (s : State) (r : Learn) : State :=
  if s.act.learnQ.any (fun x => x.fid == r.fid && x.mac == r.mac) then s
  else if s.act.learnQ.length < 256 then s.setAct { s.act with learnQ := s.act.learnQ ++ [r] }
  else s.bump (.device .LEARN_Q_FULL)

/-! ### The stream table and its directory (R104 to R110) -/

/-- VALID of a stream entry. -/
def strValid (e : List Word) : Bool := bit (wd e 6) 26
/-- KEY_TYPE of a stream entry. -/
def strKt (e : List Word) : Nat := wfld e 6 24 2
/-- A directory entry: handle with VALID in bit 31, the six key words, KEY_TYPE. -/
def dirEnt (h : Nat) (key : List Word) (kt : Nat) : List Word :=
  BitVec.ofNat 32 (h + 2 ^ 31) :: ((List.range 6).map (wd key) ++ [BitVec.ofNat 32 kt])
/-- VALID of a directory entry. -/
def dirValid (e : List Word) : Bool := bit (wd e 0) 31
/-- The key words of a directory entry (R107). -/
def dirKeys (e : List Word) : List Nat := [wnum e 1 2, wnum e 3 2, wnum e 5 2, (wd e 7).toNat]

/-- The stream directory (R107). -/
def State.dirTab (s : State) : Cuckoo :=
  let sd := s.act.seeds 2
  { sp := .dir, b := 10, stash := 0, s0 := sd.1, s1 := sd.2, keys := dirKeys, valid := dirValid, fixed := fun _ => false }

/-- The directory slot of a key. -/
def State.dirFind (s : State) (key : List Word) (kt : Nat) : Option Nat :=
  let k := dirEnt 0 key kt
  (s.dirTab.cands k).find? (fun i =>
    let e := s.tget .dir i
    dirValid e && (e.drop 1 == k.drop 1))

/-- The handle at which a key is valid. -/
def State.strFind (s : State) (key : List Word) (kt : Nat) : Option Nat :=
  (s.dirFind key kt).map (fun i => wfld (s.tget .dir i) 0 0 12)

/-- The mirror fields of a handle set anew (R108, R245). -/
def mirrorAnew (s : State) (h : Nat) : State :=
  { s with twin := { s.twin with mirror := SMap.set {} s.twin.mirror h { takeAny := true } } }

/-- R108: an entry with its state fields set anew. -/
def strAnew (e : List Word) : List Word :=
  wset (wset (wsetFld (wsetFld (wsetFld e 6 28 2 0) 8 15 1 0) 10 20 1 1) 11 0) 12 0

/-- R108: an entry with the state fields of another. -/
def strKeep (e old : List Word) : List Word :=
  wset (wset (wsetFld (wsetFld (wsetFld e 6 28 2 (wfld old 6 28 2)) 8 15 1 (wfld old 8 15 1)) 10 20 1 (wfld old 10 20 1))
    11 (wd old 11)) 12 (wd old 12)

/-- R108: is an entry refused with BAD_ENTRY. -/
def strBad (e : List Word) : Bool :=
  let alg := wfld e 9 25 2
  (bit (wd e 9) 24 && alg != 0) || alg == 3 ||
  (alg == 1 && (wfld e 10 0 6 == 0 || decide (32 < wfld e 10 0 6))) ||
  (alg != 0 && wfld e 10 8 12 == 0) ||
  wfld e 5 12 20 != 0 || wfld e 6 30 2 != 0 || wfld e 7 26 6 != 0 || wfld e 9 27 1 != 0 || wfld e 9 29 3 != 0 ||
  wfld e 10 6 2 != 0 || wfld e 10 21 11 != 0

/-- R216: a stream whose state is set anew has no picture records. -/
def freePics (s : State) (h : Nat) : State :=
  let l := s.pics.filter (fun e => e.1 % 4096 != h)
  { s with pics := l, picFull := s.picFull && (l == s.pics) }

/-- R241: the one exact record of a stream entry written, which carries LAST_ACC and the directory slots `ds` that changed. -/
def strMark (s : State) (h : Nat) (ds : List Nat) (cmd : Bool) : State :=
  s.mark (Space.stream.key h) true (60 + 8 * ds.length) cmd (Space.lastAcc.key h :: ds.map Space.dir.key)

/-- A stream entry and its directory slot are removed; its mirror fields are set anew (R108, R110, R245). -/
def strRemove (s : State) (h : Nat) (cmd : Bool := false) : State :=
  let e := s.tget .stream h
  let d := s.dirFind e (strKt e)
  let s := match d with | some i => s.twr .dir i [] | none => s
  mirrorAnew (strMark ((s.twr .stream h []).twr .lastAcc h []) h d.toList cmd) h

/-- R108, R216, R245: the entry at handle `h` is written with its state set anew. -/
def strFresh (s : State) (h : Nat) (e : List Word) : State := freePics (mirrorAnew ((s.twr .stream h (strAnew e)).twr .lastAcc h []) h) h

/-- R107, R108: WRITE of a valid stream entry at handle `h`: status code, relocations, state. -/
def strWrite (s : State) (h : Nat) (e : List Word) (anew : Bool) : Nat × Nat × State :=
  let old := s.tget .stream h
  let kt := strKt e
  if strBad e then (4, 0, s)
  else match s.strFind e kt with
    | some h' =>
      if h' ≠ h then (2, 0, s)
      else if anew then (0, 0, strMark (strFresh s h e) h [] true)
      else (0, 0, strMark (s.twr .stream h (strKeep e old)) h [] true)
    | none =>
      match s.dirTab.place s.act (dirEnt h e kt) false with
      | none => (3, 0, s)
      | some (ws, _, mv) =>
        let gone := if strValid old then s.dirFind old (strKt old) else none
        let s := rawWrites s .dir ws
        let gone := match gone with
          | none => none
          | some _ => s.dirFind old (strKt old)
        let s := match gone with | some i => s.twr .dir i [] | none => s
        (0, mv, strMark (strFresh s h e) h (ws.map (·.1) ++ gone.toList).eraseDups true)

/-- R110: the visit of the stream sweeper to one handle. -/
def streamVisit (s : State) (h : Nat) : State :=
  let e := s.tget .stream h
  if !strValid e then s
  else
    let s := if !bit (wd e 10) 20 &&
        decide (wfld e 10 8 12 ≤ (s.beat.toNat % 2 ^ 32 + 2 ^ 32 - (wd (s.tget .lastAcc h) 0).toNat) % 2 ^ 32) then
      let m := SMap.get {} s.twin.mirror h
      let s := (s.twr .stream h (wsetFld e 10 20 1 1)).mark (Space.stream.key h) true 24 false [Space.lastAcc.key h]
      { s with twin := { s.twin with mirror := SMap.set {} s.twin.mirror h { m with takeAny := true } } }
    else s
    let e := s.tget .stream h
    if bit (wd e 6) 27 then s
    else if bit (wd e 6) 28 then s.tset .stream h (wsetFld e 6 28 2 0) false 12
    else if !bit (wd e 6) 29 then s.tset .stream h (wsetFld e 6 29 1 1) false 12
    else (strRemove s h).emit 0x12 0 h

/-- R110: one beat of the stream sweeper: 64 handles; a sweep starts every PERIOD beats. -/
def streamSweepBeat (s : State) : State :=
  let p := s.act
  match p.strSweep with
  | some c =>
    let s := (List.range 64).foldl (fun s k => streamVisit s (64 * c + k)) s
    s.setAct { s.act with strSweep := if c + 1 < 64 then some (c + 1) else none }
  | none =>
    if s.rfld .LKP_STREAM_SWEEP 0 24 ≤ (s.beat - p.strBase).toNat then
      let s := s.setAct { s.act with strBase := s.beat }
      let s := (List.range 64).foldl (fun s k => streamVisit s k) s
      s.setAct { s.act with strSweep := some 1 }
    else s

/-! ### Route table (R117 to R123) -/

/-- VALID of a route entry. -/
def rtValid (e : List Word) : Bool := bit (wd e 4) 9
/-- PLEN. -/
def rtLen (e : List Word) : Nat := wfld e 4 0 8
/-- V6. -/
def rtV6 (e : List Word) : Bool := bit (wd e 4) 8
/-- PREFIX. -/
def rtPrefix (e : List Word) : Nat := wnum e 0 4
/-- Address width of an entry's family. -/
def rtWidth (e : List Word) : Nat := if rtV6 e then 128 else 32

/-- R117: an entry refused with BAD_ENTRY. DESIGN CHOICE (log entry 98): so are an entry with a reserved bit set, with the reserved
ACTION 3, or with V6 = 1 and PLEN > 128, which R117 does not name. -/
def rtBad (e : List Word) : Bool :=
  let w := rtWidth e
  decide (w < rtLen e) || decide (rtPrefix e % 2 ^ (w - rtLen e) ≠ 0) || decide (2 ^ w ≤ rtPrefix e) || wfld e 4 10 2 == 3 ||
  wfld e 4 12 20 != 0 || wfld e 6 28 4 != 0 || wfld e 7 5 27 != 0

/-- Do two entries have the same key: family, length, prefix. -/
def rtSame (a b : List Word) : Bool := rtV6 a == rtV6 b && rtLen a == rtLen b && rtPrefix a == rtPrefix b

/-- R118: does an entry match an address. -/
def rtMatch (e : List Word) (v6 : Bool) (addr : Nat) : Bool :=
  rtValid e && (rtV6 e == v6) &&
    (let sh := rtWidth e - rtLen e
     rtPrefix e / 2 ^ sh == addr / 2 ^ sh)

/-- R118 to R120, R122: the route of an address: the lowest matching row, or on the AM7220 the longest match. -/
def State.rtLookup (s : State) (v6 : Bool) (addr : Nat) : Option (List Word) :=
  let l := ((s.act.ents .route).filter (fun e => rtMatch e.2 v6 addr)).map (·.2)
  match s.part with
  | .am7240 => l.head?
  | .am7220 => l.foldl (fun b e => match b with
      | none => some e
      | some x => if rtLen x < rtLen e then some e else some x) none

/-- R120: would an entry at row `i` keep the order, the entry at row `skip` apart. -/
def State.rtOrder (s : State) (i skip : Nat) (e : List Word) : Bool :=
  (s.act.ents .route).all (fun x =>
    x.1 == i || x.1 == skip || !rtValid x.2 || (rtV6 x.2 != rtV6 e) ||
      (if x.1 < i then decide (rtLen e ≤ rtLen x.2) else decide (rtLen x.2 ≤ rtLen e)))

/-- The valid rows from `lo` up to, not including, `hi`, in row order. -/
def State.rtRows (s : State) (lo hi : Nat) : List (Nat × List Word) :=
  (s.act.ents .route).filter (fun x => rtValid x.2 && decide (lo ≤ x.1) && decide (x.1 < hi))

/-- The lower, or the higher, of two rows where both are given. -/
def rowPick (f : Nat → Nat → Nat) (a b : Option Nat) : Option Nat :=
  match a, b with
  | some x, some y => some (f x y)
  | some x, none => some x
  | none, b => b

/-- R121: of the rows `l` of one family, in row order, the first row of the range whose length the last of them has. -/
def rangeFirst (l : List (Nat × List Word)) : Option Nat :=
  match l.getLast? with
  | none => none
  | some x => (l.find? (fun y => rtLen y.2 == rtLen x.2)).map (·.1)

/-- R121: makes room upwards in index: the first row of the range next to the free row `hole` moves into it, range by range, down to
the new entry's range, which ends before row `hi` and begins no lower than `lo`. Of the two families' ranges the one whose first row is
lower moves, so that no range moves twice. The moves, the row that is free in the end, and the state. -/
def rtShiftUp (s : State) (lo hi : Nat) : Nat → Nat → Nat → Nat × Nat × State
  | 0, hole, mv => (mv, hole, s)
  | fuel + 1, hole, mv =>
    if hole ≤ hi then (mv, hole, s)
    else
      let l := s.rtRows lo hole
      match rowPick min (rangeFirst (l.filter (fun x => !rtV6 x.2))) (rangeFirst (l.filter (fun x => rtV6 x.2))) with
      | none => (mv, hole, s)
      | some r =>
        let s := (s.tset .route hole (s.tget .route r) true 40 true).tset .route r [] true 40 true
        rtShiftUp s lo hi fuel r (mv + 1)

/-- R121: makes room downwards in index, in the same way: the last row of each range moves into the free row. -/
def rtShiftDown (s : State) (lo hi : Nat) : Nat → Nat → Nat → Nat × Nat × State
  | 0, hole, mv => (mv, hole, s)
  | fuel + 1, hole, mv =>
    if lo ≤ hole + 1 then (mv, hole, s)
    else
      let l := (s.rtRows (hole + 1) hi).reverse
      match rowPick max (rangeFirst (l.filter (fun x => !rtV6 x.2))) (rangeFirst (l.filter (fun x => rtV6 x.2))) with
      | none => (mv, hole, s)
      | some r =>
        let s := (s.tset .route hole (s.tget .route r) true 40 true).tset .route r [] true 40 true
        rtShiftDown s lo hi fuel r (mv + 1)

/-- R121: INSERT on the AM7240 of a key not present: status code, moves, row, state. Among free rows of the range the lowest is
taken; the nearest free row otherwise (DESIGN CHOICE, log entry 15). -/
def rtInsert (s : State) (e : List Word) : Nat × Nat × Nat × State :=
  let es := (s.act.ents .route).filter (fun x => rtValid x.2)
  let same := es.filter (fun x => rtV6 x.2 == rtV6 e)
  let lo := same.foldl (fun a x => if rtLen e < rtLen x.2 then max a (x.1 + 1) else a) 0
  let hi := same.foldl (fun a x => if rtLen x.2 < rtLen e then min a x.1 else a) 4096
  let free := fun i => !rtValid (s.tget .route i)
  match ((List.range (hi - lo)).map (lo + ·)).find? free with
  | some r => (0, 0, r, s.tset .route r e true 40 true)
  | none =>
    let up := ((List.range (4096 - hi)).map (hi + ·)).find? free
    let dn := ((List.range lo).map (lo - 1 - ·)).find? free
    let useUp := match up, dn with
      | some u, some d => decide (u - hi ≤ lo - 1 - d)
      | some _, none => true
      | _, _ => false
    if useUp then
      let x := rtShiftUp s lo hi 4096 (up.getD 0) 0
      (0, x.1, x.2.1, x.2.2.tset .route x.2.1 e true 40 true)
    else match dn with
      | none => (3, 0, 0, s)
      | some d =>
        let x := rtShiftDown s lo hi 4096 d 0
        (0, x.1, x.2.1, x.2.2.tset .route x.2.1 e true 40 true)

/-- The AM7220 route table as a cuckoo table (R122). -/
def State.rtTab (s : State) : Cuckoo :=
  let sd := s.act.seeds 3
  { sp := .route, b := 9, stash := 0, s0 := sd.1, s1 := sd.2,
    keys := fun e => [wnum e 0 2, wnum e 2 2, rtLen e + (if rtV6 e then 256 else 0)], valid := rtValid, fixed := fun _ => false }

/-- R123: the distinct lengths present in a family. -/
def State.rtLens (s : State) (v6 : Bool) : List Nat :=
  (((s.act.ents .route).filter (fun x => rtValid x.2 && rtV6 x.2 == v6)).map (fun x => rtLen x.2)).eraseDups

/-- R123: would an entry bring a ninth length of its family. -/
def State.rtLenFull (s : State) (e : List Word) : Bool :=
  let l := s.rtLens (rtV6 e)
  !l.contains (rtLen e) && decide (8 ≤ l.length)

/-- The index of a present route key. -/
def State.rtFind (s : State) (e : List Word) : Option Nat :=
  ((s.act.ents .route).find? (fun x => rtValid x.2 && rtSame x.2 e)).map (·.1)

/-! ### Groups and VLANs (R114, R116) -/

/-- R116: the PORTS of a group; a group that is not VALID gives no port. -/
def State.groupPorts (s : State) (g : Nat) : Nat :=
  let e := s.tget .group g
  if bit (wd e 0) 24 then wfld e 0 0 24 else 0

end Sys2Proof.Machine
end

