-- ==== Sys2Proof/Machine/Mastiff.lean ====
section
/-! DEFINITION. Mastiff: zones, rules, connections, hooks, and the queries of the gateway engines (R131 to R165). -/

namespace Sys2Proof.Machine

/-! ### Zones (R131, R132) -/

/-- The source zone of a frame. -/
def State.srcZone (s : State) (port : Nat) (src : FrameSrc) : Nat :=
  match src with
  | .gateway => s.rfld .FW_SVC_ZONE 0 4
  | .shepherd _ => s.rfld .FW_SVC_ZONE 4 4
  | .retriever => s.rfld .FW_SVC_ZONE 8 4
  | _ => s.rfld .FW_PORT_ZONE 0 4 port

/-- The destination zone of a port for a frame with this key vector. -/
def State.dstZone (s : State) (key : List Byte) (n : Nat) : Nat :=
  if n = 23 then (if maskBit (present key) 11 then s.rfld .FW_SVC_ZONE 0 4 else s.rfld .FW_SVC_ZONE 4 4)
  else s.rfld .FW_PORT_ZONE 0 4 n

/-- Zone of CANc (0 to 7) or LINl (8 to 11). -/
def State.busZone (s : State) (b : Nat) : Nat :=
  if b < 8 then s.rfld .FW_BUS_ZONE (4 * b) 4 else s.rfld .FW_LIN_ZONE (4 * (b - 8)) 4

/-! ### Rules (R138 to R142, R160) -/

/-- The active rule bank (FW_STATUS.BANK). -/
def State.ruleBank (s : State) : Nat := s.ruleEpoch % 2

/-- The memory of a rule bank. -/
def ruleSpace (b : Nat) : Space := if b = 0 then .rule0 else .rule1

/-- Do two values agree under a mask. -/
def maskEq (a b m : Nat) : Bool := (a &&& m) == (b &&& m)

/-- Do the first `n` bits of `w`-bit numbers agree. -/
def prefixEq (w n a b : Nat) : Bool := (a / 2 ^ (w - n)) == (b / 2 ^ (w - n))

/-- R139: does a frame rule use IP fields. -/
def ruleIp (r : List Word) : Bool :=
  wfld r 15 0 8 != 0 || wfld r 15 8 8 != 0 || wfld r 4 0 8 != 0 || wfld r 4 16 8 != 0 || wfld r 5 16 16 != 0 ||
  wfld r 6 0 16 != 0 || wfld r 6 16 16 != 65535

/-- R140: does a TYPE 0 rule match a key vector with resolved VID for zones (S, Z). -/
def ruleMatch (r : List Word) (key : List Byte) (vid sz dz : Nat) : Bool :=
  let pr := present key
  let v4 := maskBit pr 4
  let v6 := maskBit pr 6
  let rv6 := bit (wd r 15) 16
  let sl := wfld r 15 0 8
  let dl := wfld r 15 8 8
  let w := if rv6 then 128 else 32
  let addr := fun i => if rv6 then beNat key i 16 else beNat key (i + 12) 4
  bit (wd r 15) 30 && !bit (wd r 15) 31 &&
  maskBit (wfld r 0 0 16) sz && maskBit (wfld r 0 16 16) dz &&
  maskEq pr (wfld r 1 0 16) (wfld r 1 16 16) &&
  maskEq (beNat key 20 2) (wfld r 2 0 16) (wfld r 2 16 16) &&
  maskEq vid (wfld r 3 0 12) (wfld r 3 12 12) &&
  maskEq (byteAt key 56).toNat (wfld r 3 24 8) (wfld r 4 0 8) &&
  maskEq (byteAt key 62).toNat (wfld r 4 8 8) (wfld r 4 16 8) &&
  maskEq (beNat key 58 2) (wfld r 5 0 16) (wfld r 5 16 16) &&
  (!ruleIp r ||
    ((v4 || v6) && ((sl == 0 && dl == 0) || rv6 == v6) &&
     decide (wfld r 6 0 16 ≤ beNat key 60 2) && decide (beNat key 60 2 ≤ wfld r 6 16 16) &&
     prefixEq w sl (wnum r 7 4 % 2 ^ w) (addr 24) && prefixEq w dl (wnum r 11 4 % 2 ^ w) (addr 40)))

/-- R142: is a WRITE to table 5 refused with BAD_ENTRY. -/
def ruleBad (r : List Word) : Bool :=
  let lim := if bit (wd r 15) 16 then 128 else 32
  if bit (wd r 15) 31 then
    decide (2 ≤ wfld r 15 17 2) || wfld r 1 30 2 == 3 || wfld r 15 0 17 != 0 ||
    (List.range 11).any (fun i => wd r (4 + i) != 0) || bit (wd r 2) 31 || wfld r 3 12 20 != 0
  else
    decide (wfld r 6 16 16 < wfld r 6 0 16) || decide (lim < wfld r 15 0 8) || decide (lim < wfld r 15 8 8) ||
    wfld r 4 24 8 != 0 || (!bit (wd r 15) 16 && (wnum r 8 3 != 0 || wnum r 12 3 != 0))

/-- The lowest-indexed rule of the active bank from index `lo` on that a test accepts. -/
def State.findRule (s : State) (lo : Nat) (f : List Word → Bool) : Option (Nat × List Word) :=
  (s.act.ents (ruleSpace s.ruleBank)).find? (fun e => decide (lo ≤ e.1) && f e.2)

/-! ### Counts and records (R164) -/

/-- R164: zone `dz` of a frame from `sz` is denied; `rule` decided it, with its LOG bit. `src` is the SRC of the record. -/
def denyZone (s : State) (src sz dz : Nat) (cause : ZoneCtr) (rule : Option (Nat × List Word)) (key : List Byte) : State :=
  let s := s.bump (.zone sz cause)
  let log := match rule with
    | some (_, r) => bit (wd r 15) 19
    | none => (cause == .DEFAULT) && s.rbit .FW_LOG_CFG 8
  let evt := s.rbit .FW_CTRL 5
  let s := if log && evt then
      if s.lim.fw < s.rfld .FW_LOG_CFG 0 8 then
        let ri := match rule with | some (i, _) => i | none => 65535
        { s.emit 0x20 src (ri + sz * 2 ^ 16 + dz * 2 ^ 20 + cause.ctorIdx * 2 ^ 24) (leWords key 4 5) with
          lim := { s.lim with fw := s.lim.fw + 1 } }
      else s.bump (.fwMisc .LOG_SUPPRESSED)
    else s
  let s := if (cause == .HOOK_FAULT) && evt && !s.lim.hookFault then
      let eng := match rule with | some (_, r) => 8 + wfld r 15 20 2 | none => 0
      { s.emit 0x21 eng 0 with lim := { s.lim with hookFault := true } }
    else s
  if (cause == .CT_QUEUE_FULL) && evt && !s.lim.ctFull then
    { s.emit 0x22 src 0 with lim := { s.lim with ctFull := true } }
  else s

/-! ### Connections (R143 to R153) -/

/-- VALID of a connection entry. -/
def ctValid (e : List Word) : Bool := bit (wd e 9) 17
/-- STATE of a connection entry. -/
def ctState (e : List Word) : Nat := wfld e 9 18 2
/-- The key part of a connection entry: addresses, ports, PROTO, V6 and zones. -/
def ctKey (e : List Word) : List Word := ((List.range 9).map (wd e)) ++ [BitVec.ofNat 32 (wfld e 9 0 17)]

/-- The connection table as a cuckoo table (R144). -/
def ctTab : Cuckoo :=
  { sp := .conn, b := 10, stash := 0, s0 := (Config.ctSeed 0).toNat, s1 := (Config.ctSeed 1).toNat,
    keys := fun e => [wnum e 0 2, wnum e 2 2, wnum e 4 2, wnum e 6 2,
      (wd e 8).toNat + 2 ^ 32 * wfld e 9 0 8 + 2 ^ 40 * wfld e 9 8 1 + 2 ^ 41 * wfld e 9 9 4 + 2 ^ 45 * wfld e 9 13 4],
    valid := ctValid, fixed := fun _ => false }

/-- R150: the current connection tick. -/
def State.ctTick (s : State) : Nat := s.beat.toNat / 2 ^ 17 % 256

/-- A connection entry from addresses, ports, protocol and zones. -/
def ctEnt (sip dip sport dport proto : Nat) (v6 : Bool) (sz dz : Nat) : List Word :=
  numWords sip 4 ++ numWords dip 4 ++
    [BitVec.ofNat 32 (sport + dport * 2 ^ 16),
     BitVec.ofNat 32 (proto + (if v6 then 2 ^ 8 else 0) + sz * 2 ^ 9 + dz * 2 ^ 13 + 2 ^ 17), 0]

/-- The forward key of a frame (R145). -/
def ctFwd (key : List Byte) (sz dz : Nat) : List Word :=
  ctEnt (beNat key 24 16) (beNat key 40 16) (beNat key 58 2) (beNat key 60 2) (byteAt key 56).toNat
    (maskBit (present key) 6) sz dz

/-- The reverse key of a frame (R145). -/
def ctRev (key : List Byte) (sz dz : Nat) : List Word :=
  ctEnt (beNat key 40 16) (beNat key 24 16) (beNat key 60 2) (beNat key 58 2) (byteAt key 56).toNat
    (maskBit (present key) 6) dz sz

/-- The slot of a connection with a key, of the current generation (R145). -/
def State.ctFind (s : State) (k : List Word) : Option Nat :=
  (ctTab.cands k).find? (fun i =>
    let e := s.tget .conn i
    ctValid e && (ctKey e == ctKey k) && (wfld e 10 0 4 == s.act.genOf 24))

/-- R148: the next state on a frame with TCP flags in the reply direction or not. -/
def ctNext (st : Nat) (reply : Bool) (proto flags : Nat) : Nat :=
  if proto ≠ 6 then st
  else
    let fin := flags.testBit 0
    let syn := flags.testBit 1
    let rst := flags.testBit 2
    let ack := flags.testBit 4
    match st with
    | 1 => if rst then 3 else if reply && syn && ack then 2 else 1
    | 2 => if fin || rst then 3 else 2
    | n => n

/-- R149: a hit on a written connection queues an update when TS, STATE or REPLY_SEEN changes. -/
def ctHit (s : State) (i : Nat) (reply : Bool) (key : List Byte) : State :=
  let e := s.tget .conn i
  let st := ctNext (ctState e) reply (byteAt key 56).toNat (byteAt key 62).toNat
  let rp := reply || bit (wd e 9) 20
  if (wfld e 9 21 8 != s.ctTick) || (st != ctState e) || (rp != bit (wd e 9) 20) then
    if s.act.updateQ.length < 64 then
      s.setAct { s.act with updateQ := s.act.updateQ ++ [{ slot := i, key := wnum (ctKey e) 0 10, tick := s.ctTick, st := st, reply := rp }] }
    else s.bump (.fwMisc .CT_UPDATE_SKIP)
  else s

/-- R149: a hit on a queued create changes the create itself. -/
def ctHitQueued (s : State) (k : List Word) (reply : Bool) (key : List Byte) : State :=
  s.setAct { s.act with createQ := s.act.createQ.map (fun e =>
    if ctKey e == ctKey k then
      wsetFld (wsetFld e 9 18 2 (ctNext (ctState e) reply (byteAt key 56).toNat (byteAt key 62).toNat)) 9 20 1
        (if reply || bit (wd e 9) 20 then 1 else 0)
    else e) }

/-- R145: does a frame from S to Z belong to a connection; the state with the hit's effects. -/
def ctProbe (s : State) (key : List Byte) (sz dz : Nat) : Option State :=
  let f := ctFwd key sz dz
  let r := ctRev key sz dz
  match s.ctFind f with
  | some i => some (ctHit s i false key)
  | none => match s.ctFind r with
    | some i => some (ctHit s i true key)
    | none =>
      if s.act.createQ.any (fun e => ctKey e == ctKey f && wfld e 10 0 4 == s.act.genOf 24) then some (ctHitQueued s f false key)
      else if s.act.createQ.any (fun e => ctKey e == ctKey r && wfld e 10 0 4 == s.act.genOf 24) then some (ctHitQueued s r true key)
      else none

/-- R141, R146, R147: ALLOW_TRACK for a zone: the cause of a denial if any, and the state. -/
def allowTrack (s : State) (key : List Byte) (sz dz ri : Nat) (single : Bool) : Option ZoneCtr × State :=
  let pr := present key
  if s.rbit .FW_CT_CTRL 0 && single && (maskBit pr 4 || maskBit pr 6) then
    let proto := (byteAt key 56).toNat
    let fl := (byteAt key 62).toNat
    if proto = 6 ∧ s.rbit .FW_CTRL 3 ∧ !(fl.testBit 1 && !fl.testBit 4) then (some .CT_NO_SYN, s)
    else
      let e := ctFwd key sz dz
      if s.act.createQ.any (fun x => ctKey x == ctKey e) then (none, s)
      else if 128 ≤ s.act.createQ.length then (some .CT_QUEUE_FULL, s)
      else
        let e := wsetFld (wsetFld e 9 18 2 (if proto = 6 then 1 else 0)) 9 21 8 s.ctTick
        let e := wset e 10 (BitVec.ofNat 32 (s.act.genOf 24 + ri * 16))
        (none, s.setAct { s.act with createQ := s.act.createQ ++ [e] })
  else (none, s)

/-- R147: serves one create: the write cycles used, and the state. -/
def ctCreate (s : State) (e : List Word) : Nat × State :=
  match s.ctFind e with
  | some _ => (0, s)
  | none => match ctTab.place s.act e false with
    | some (ws, _, _) => (ws.length, (writes s .conn ws 52 false).bump (.fwMisc .CT_CREATED))
    | none =>
      (0, s.emitIf (s.rbit .FW_CTRL 5) 0x23 0 (wfld e 8 16 16 + wfld e 9 0 8 * 2 ^ 16) [wd e 4, wd e 5, wd e 6, wd e 7])

/-- R92, R147: the learning share of the connection table's slice. -/
def ctShare (s : State) : Nat → Nat → State
  | 0, _ => s
  | fuel + 1, left =>
    match s.act.createQ with
    | [] => s
    | e :: t =>
      if left < (if (s.ctFind e).isSome then 0 else 33) then s
      else
        let x := ctCreate (s.setAct { s.act with createQ := t }) e
        ctShare x.2 fuel (left - x.1)

/-- R149: an update is written only if its slot still holds the same key. -/
def ctUpdate (s : State) (u : CtUpd) : State :=
  let e := s.tget .conn u.slot
  if ctValid e && (wnum (ctKey e) 0 10 == u.key) then
    let e' := wsetFld (wsetFld (wsetFld e 9 21 8 u.tick) 9 18 2 u.st) 9 20 1 (if u.reply then 1 else 0)
    let exact := (ctState e != u.st) || (bit (wd e 9) 20 != u.reply)
    s.tset .conn u.slot e' exact (if exact then 52 else 12)
  else s

/-- The timeout of a connection state in ticks (FW_CT_TMO). -/
def State.ctTmo (s : State) (st : Nat) : Nat := s.rfld .FW_CT_TMO (8 * st) 8

/-- R150: the conditional delete that the connection sweeper issues for a slot. -/
def State.ctSweepSlot (s : State) (i : Nat) : Option CondDel :=
  let e := s.tget .conn i
  if !ctValid e then none
  else if wfld e 10 0 4 != s.act.genOf 24 then some { slot := i, key := wnum (ctKey e) 0 10, byGen := true, val := wfld e 10 0 4 }
  else if s.ctTmo (ctState e) ≤ (s.ctTick + 256 - wfld e 9 21 8) % 256 then
    some { slot := i, key := wnum (ctKey e) 0 10, byGen := false, val := wfld e 9 21 8 }
  else none

/-- R96, R150: a conditional delete of a connection. -/
def ctCondDelete (s : State) (d : CondDel) : State :=
  let e := s.tget .conn d.slot
  if ctValid e && (wnum (ctKey e) 0 10 == d.key) && ((if d.byGen then wfld e 10 0 4 else wfld e 9 21 8) == d.val) then
    (s.tset .conn d.slot [] true 52).bump (.fwMisc .CT_REMOVED)
  else s

/-- R92: the sweep share of the connection table's slice. -/
def ctSweepShare (s : State) : State :=
  let l := s.act.ctDelQ.take 64
  let s := s.setAct { s.act with ctDelQ := s.act.ctDelQ.drop 64 }
  l.foldl ctCondDelete s

/-- R150: one beat of the connection sweeper. -/
def ctSweep (s : State) : State :=
  if !s.rbit .FW_CT_CTRL 1 then s
  else
    let c := s.act.ctCur
    let s := if c = 0 then passStart s 24 else s
    let s := s.setAct { s.act with ctDelQ := s.act.ctDelQ ++ ((List.range 4).map (4 * c + ·)).filterMap s.ctSweepSlot }
    if c + 1 < 2048 then s.setAct { s.act with ctCur := c + 1 }
    else passEnd (s.setAct { s.act with ctCur := 0 }) 24

/-- A held frame whose decision is void: it is to be decided again; the zones counted as denied stay counted (R137). -/
def Held.undecided (h : Held) : Held :=
  { h with dec := none, waits := 0, old := [], denied := h.denied ++ (match h.dec with | some d => d.denied | none => []) }

/-! ### Judging a frame (R134 to R137) and its hooks (R156, R157) -/

/-- What Mastiff finds for one zone. -/
inductive Verdict where
  | allow
  | deny (cause : ZoneCtr) (rule : Option (Nat × List Word))
  | hook (rule : Nat) (r : List Word)
deriving DecidableEq, Repr

/-- R141: acts on zone `dz` by the first matching rule from index `lo` on. -/
def judgeRules (s : State) (key : List Byte) (vid sz dz lo : Nat) (single : Bool) : Verdict × State :=
  match s.findRule lo (fun r => ruleMatch r key vid sz dz) with
  | none => (.deny .DEFAULT none, s)
  | some (i, r) =>
    let s := s.bump (.rule (2048 * s.ruleBank + i))
    match wfld r 15 17 2 with
    | 0 => (.deny .RULE (some (i, r)), s)
    | 1 => (.allow, s)
    | 2 => match allowTrack s key sz dz i single with
      | (some c, s) => (.deny c (some (i, r)), s)
      | (none, s) => (.allow, s)
    | _ => (.hook i r, s)

/-- R135: judges one destination zone. -/
def judgeZone (s : State) (key : List Byte) (vid sz dz : Nat) (single : Bool) : Verdict × State :=
  let pr := present key
  let deep := (byteAt key 0).toNat.testBit 5
  if dz = sz ∧ !maskBit (s.rfld .FW_ZONE_INTRA 0 16) dz then (.allow, s)
  else if maskBit pr 5 && s.rbit .FW_CTRL 1 then (.deny .FRAG none, s)
  else if deep && s.rbit .FW_CTRL 2 then (.deny .DEEP none, s)
  else
    match (if single && (maskBit pr 4 || maskBit pr 6) then ctProbe s key sz dz else none) with
    | some s => (.allow, s)
    | none => judgeRules s key vid sz dz 0 single

/-- Is a MAC address in the link-local block of R136. -/
def linkLocal (mac : Nat) : Bool := mac / 16 == 0x0180C200000

/-- R136: is a frame exempt. -/
def State.exempt (s : State) (src : FrameSrc) (key : List Byte) (dest : Nat) : Bool :=
  s.rbit .FW_CTRL 4 && linkLocal (beNat key 4 6) &&
    (dest == 2 ^ 23 || (match src with | .shepherd _ => true | _ => false))

/-- Ports of a mask that lie in a zone. -/
def State.zonePorts (s : State) (key : List Byte) (dest dz : Nat) : Nat :=
  (maskList dest 24).foldl (fun m n => if s.dstZone key n = dz then maskSet m n else m) 0

/-- R156: is a hook request answered at once, and why. -/
def State.hookDown (s : State) (e : Nat) : Option ZoneCtr :=
  let g := s.engine (8 + e)
  if !s.rbit .FW_HOOK_CFG 0 e || !g.en || g.faulted || g.halted || g.image.isNone then some .HOOK_FAULT
  else if 64 ≤ g.hookPart.length then some .HOOK_FULL
  else none

/-- A zone of a held frame is denied: its ports leave the destination mask. A zone that an earlier decision of the frame has counted is
not counted again (R137). -/
def holdDeny (s : State) (h : Held) (d : Dec) (key : List Byte) (dz : Nat) (cause : ZoneCtr) (rule : Option (Nat × List Word)) :
    Dec × State :=
  let s := if h.denied.contains dz then s else denyZone s h.port d.szone dz cause rule key
  ({ d with dest := d.dest &&& (2 ^ 24 - 1 - s.zonePorts key (2 ^ 24 - 1) dz), denied := d.denied ++ [dz] }, s)

/-- R156: the hook requests of a frame, one per engine, from the zones whose rule is a hook: the decision so far, the number
of requests queued, and the state. -/
def hookRequests (s : State) (h : Held) (d : Dec) (key : List Byte) (zs : List (Nat × Nat × List Word)) : Dec × Nat × State :=
  (List.range 4).foldl (fun (acc : Dec × Nat × State) e =>
    let mine := zs.filter (fun z => wfld z.2.2 15 20 2 == e)
    if mine.isEmpty then acc
    else match acc.2.2.hookDown e with
      | some c =>
        let x := mine.foldl (fun (a : Dec × State) z => holdDeny a.2 h a.1 key z.1 c (some (z.2.1, z.2.2))) (acc.1, acc.2.2)
        (x.1, acc.2.1, x.2)
      | none =>
        let s := acc.2.2
        let g := s.engine (8 + e)
        let rq : HookReq := { eng := e, frame := h.id, zones := mine.map (fun z => (z.1, z.2.1, wfld z.2.2 15 22 8)), rules := mine.map (·.2.2),
                              queued := s.beat, epoch := s.ruleEpoch }
        (acc.1, acc.2.1 + 1, s.setEngine (8 + e) { g with hookPart := g.hookPart ++ [rq] })) (d, 0, s)

/-- R135 to R137: judges every destination zone of a held frame; the decision and the number of hook requests queued. -/
def mastiff (s : State) (h : Held) (d : Dec) (key : List Byte) : Dec × Nat × State :=
  if !s.rbit .FW_CTRL 0 || s.exempt h.src key d.dest then (d, 0, s)
  else
    let zs := ((maskList d.dest 24).map (s.dstZone key)).eraseDups
    let single := d.single
    let x := zs.foldl (fun (acc : Dec × List (Nat × Nat × List Word) × State) dz =>
      match judgeZone acc.2.2 key d.vid d.szone dz single with
      | (.allow, s) => (acc.1, acc.2.1, s)
      | (.deny c r, s) => let y := holdDeny s h acc.1 key dz c r; (y.1, acc.2.1, y.2)
      | (.hook i r, s) => (acc.1, acc.2.1 ++ [(dz, i, r)], s)) (d, [], s)
    hookRequests x.2.2 h x.1 key x.2.1

/-- R157, R158: a verdict code, or a denial with its cause, for one request of a held frame; the decision so far, the number
of new requests, and the state. -/
def applyVerdict (s : State) (h : Held) (d : Dec) (key : List Byte) (rq : HookReq) (v : Nat ⊕ ZoneCtr) : Dec × Nat × State :=
  let single := d.single
  let x := rq.zones.zipIdx.foldl (fun (acc : Dec × List (Nat × Nat × List Word) × State) zi =>
    let z := zi.1
    let s := acc.2.2
    let dz := z.1
    let hr := rq.rules.getD zi.2 []
    let deny := fun (c : ZoneCtr) => let y := holdDeny s h acc.1 key dz c (some (z.2.1, hr)); (y.1, acc.2.1, y.2)
    match v with
    | .inr c => deny c
    | .inl 0 => deny .HOOK
    | .inl 1 => acc
    | .inl 2 => match allowTrack s key d.szone dz z.2.1 single with
      | (some c, s) => let y := holdDeny s h acc.1 key dz c (some (z.2.1, hr)); (y.1, acc.2.1, y.2)
      | (none, s) => (acc.1, acc.2.1, s)
    | .inl 3 => match judgeRules s key d.vid d.szone dz (if rq.epoch = s.ruleEpoch then z.2.1 + 1 else 0) single with
      | (.allow, s) => (acc.1, acc.2.1, s)
      | (.deny c r, s) => let y := holdDeny s h acc.1 key dz c r; (y.1, acc.2.1, y.2)
      | (.hook i r, s) => (acc.1, acc.2.1 ++ [(dz, i, r)], s)
    | .inl _ => deny .HOOK_BAD) (d, [], s)
  hookRequests x.2.2 h x.1 key x.2.1

/-! ### CAN and LIN queries (R154, R155) -/

/-- R155: does a TYPE 1 rule match a bus frame for zones (S, Z). -/
def busRuleMatch (r : List Word) (f : BusFrame) (verified : Bool) (sz dz : Nat) : Bool :=
  bit (wd r 15) 30 && bit (wd r 15) 31 &&
  maskBit (wfld r 0 0 16) sz && maskBit (wfld r 0 16 16) dz &&
  (wfld r 1 30 2 == f.kind) &&
  maskEq f.id (wfld r 1 0 29) (wfld r 2 0 29) &&
  (f.kind != 0 || !bit (wd r 2) 29 || (bit (wd r 1) 29 == f.ide)) &&
  (wfld r 3 0 12 == 0 || decide (f.data.length ≤ wfld r 3 0 12)) &&
  (!bit (wd r 2) 30 || verified)

/-- R154, R253: does a bus frame pass from zone S to zone Z in the plane that answers (none denies): the answer and the state (rule hits, CAN_DENY of counter `ci`, and the
records of R164; `src` is the record's SRC). -/
def busQuery (s : State) (p? : Option Plane) (f : BusFrame) (verified : Bool) (sz dz ci src : Nat) : Bool × State :=
  match p? with
  | none => (false, s.bump (.canDeny ci))
  | some p =>
  if sz = dz ∧ !maskBit (s.rfld .FW_ZONE_INTRA 0 16) dz then (true, s)
  else match (p.ents (ruleSpace s.ruleBank)).find? (fun e => busRuleMatch e.2 f verified sz dz) with
    | none => (false, denyLog (s.bump (.canDeny ci)) none)
    | some (i, r) =>
      let s := s.bump (.rule (2048 * s.ruleBank + i))
      if wfld r 15 17 2 = 1 then (true, s) else (false, denyLog (s.bump (.canDeny ci)) (some (i, r)))
where
  /-- The FW_DENY record of a denied bus frame. -/
  denyLog (s : State) (rule : Option (Nat × List Word)) : State :=
    let cause : ZoneCtr := match rule with | none => .DEFAULT | some _ => .RULE
    let log := match rule with | some (_, r) => bit (wd r 15) 19 | none => s.rbit .FW_LOG_CFG 8
    if log && s.rbit .FW_CTRL 5 then
      if s.lim.fw < s.rfld .FW_LOG_CFG 0 8 then
        let ri := match rule with | some (i, _) => i | none => 65535
        { s.emit 0x20 src (ri + sz * 2 ^ 16 + dz * 2 ^ 20 + cause.ctorIdx * 2 ^ 24) with lim := { s.lim with fw := s.lim.fw + 1 } }
      else s.bump (.fwMisc .LOG_SUPPRESSED)
    else s

/-! ### Commands -/

/-! ### The maintenance slice (R91, R92) -/

/-- Cycles that the commands of a table have used in this beat's slice. -/
def State.cmdCycles (s : State) (t : Nat) : Nat := SMap.get 0 s.twin.wrCycles t

/-- R91, R92: the slice of this beat ends, once: after the commands come the sweep share, the learning share with what the commands of
the table have left of it, the stash, and the sweepers' reads. DESIGN CHOICE (log entry 86): the shares after the commands run before the
first decision, refresh or update write of the beat or at its copy window, whichever comes first; a table command after that waits for
the next slice. -/
def sliceClose (s : State) : State :=
  if s.twin.sliceEnd || s.actId.isNone then s
  else
    let s := ctSweepShare (sweepShare { s with twin := { s.twin with sliceEnd := true } })
    let x := learnShare s 256 (960 - min 768 (s.cmdCycles 0))
    let s := stashReplace x.2 x.1
    ctSweep (fdbSweep (ctShare s 128 (960 - min 768 (s.cmdCycles 6))))

/-- REFRESH_WRITE (R91, R96): the slice has ended, and the oldest queued refresh is written. -/
def execRefreshWrite (s : State) : Ans :=
  onDie s (fun s =>
    let s := sliceClose s
    match s.actId, s.act.refreshQ with
    | some _, r :: t => refreshWrite (s.setAct { s.act with refreshQ := t }) r
    | _, _ => s)

/-- CT_UPDATE_WRITE (R91, R149): the slice has ended, and the oldest queued connection update is written. -/
def execCtUpdateWrite (s : State) : Ans :=
  onDie s (fun s =>
    let s := sliceClose s
    match s.actId, s.act.updateQ with
    | some _, u :: t => ctUpdate (s.setAct { s.act with updateQ := t }) u
    | _, _ => s)

/-- STREAM_SWEEP (R110): the visits of the stream sweeper in this beat, once per beat. DESIGN CHOICE (log entry 87): R110 puts the visits at
the start of the slice and R92 the commands first; the command in TBL_CMD runs in the boundary, the visits in this command after it. -/
def execStreamSweep (s : State) : Ans :=
  onDie s (fun s =>
    if s.actId.isSome ∧ s.act.strLast ≠ some s.beat then
      streamSweepBeat (s.setAct { s.act with strLast := some s.beat })
    else s)

/-- CT_FLUSH (R152): FW_CT_CMD.FLUSH. -/
def execCtFlush (s : State) : Ans :=
  onBar0 s .FW_CT_CMD 0 (fun s => flushOrDefer s 24)

/-- UNBLOCK (R101): LKP_FDB_CTRL.UNBLOCK empties the blocked list. -/
def execUnblock (s : State) : Ans :=
  onBar0 s .LKP_FDB_CTRL 0 (fun s => s.setAct { s.act with blocked := [] })

end Sys2Proof.Machine
end

