-- ==== Sys2Proof/Machine/Check.lean ====
section
/-! DEFINITION. The check snoopers on the write bus (R182, R222, R422 to R425). -/

namespace Sys2Proof.Machine

/-- R423: CRC-32P4 over bytes from register value `c` (the polynomial 0xF4AC_FB13 reflected). -/
def crcP4 (c : Nat) (l : List Byte) : Nat := crcRun 0xC8DF352F c l

/-- Initial register value of R423. -/
def crcP4Init : Nat := 0xFFFFFFFF

/-- Snooper `u`. -/
def State.chkOf (s : State) (u : Nat) : Chk := SMap.get {} s.chk u
/-- Snooper `u` replaced. -/
def State.setChk (s : State) (u : Nat) (c : Chk) : State := { s with chk := SMap.set {} s.chk u c }

/-- The enabled snooper of a stream handle (R422). -/
def State.snooperOf (s : State) (h : Nat) : Option Nat :=
  (List.range 16).find? (fun u => s.rbit .CHK_CFG 0 u && (s.rfld .CHK_CFG 16 12 u == h))

/-- R424, R425: the comparison at an EOP packet: is the mismatch reported to the picture tracker, and the state. -/
def chkCompare (s : State) (u h cv rv : Nat) (ok : Bool) : Bool × State :=
  let s := (s.setReg .CHK_LAST_CALC (BitVec.ofNat 32 cv) u).setReg .CHK_LAST_RECV (BitVec.ofNat 32 rv) u
  if ok then (false, s.bump (.chk u .CHK_OK))
  else
    let s := (s.bump (.chk u .CHECK_FAIL)).flag .CHK_EVENT .CHK_IRQ_EN u
    let s := s.emitIf (s.rbit .CHK_CTRL 0 && s.rbit .CHK_CFG 2 u) 0xB3 u h [BitVec.ofNat 32 cv, BitVec.ofNat 32 rv]
    (s.rbit .CHK_CFG 1 u, s)

/-- R182, R422 to R424: a frame of stream `h` passes the write bus once: its bytes, the end of its video header, its
stream_data_length and whether it ends its picture. -/
def snoop (s : State) (h : Nat) (bytes : List Byte) (video : Option Nat) (sdl : Nat) (eop : Bool) : Bool × State :=
  match s.snooperOf h with
  | none => (false, s)
  | some u =>
    match video with
    | none => (false, s.bump (.chk u .CHK_NOT_VIDEO))
    | some o =>
      let c := s.chkOf u
      let pay := (bytes.drop o).take sdl
      let short := decide (pay.length < sdl)
      if c.st = 1 then
        if eop then (false, s.setChk u { st := 2, crc := crcP4Init, bad := false }) else (false, s)
      else if c.st = 2 then
        if eop then
          let n := pay.length - 4
          let cv := crcP4 c.crc (pay.take n) ^^^ 0xFFFFFFFF
          let rv := leNat pay n (pay.length - n)
          let ok := !c.bad && !short && decide (4 ≤ pay.length) && (cv == rv)
          chkCompare (s.setChk u { st := 2, crc := crcP4Init, bad := false }) u h cv rv ok
        else (false, s.setChk u { c with crc := crcP4 c.crc pay, bad := c.bad || short })
      else (false, s)

/-- R217: has the copy of frame `f` for queue `q` been judged, so that the picture number has advanced past its picture. -/
def State.judgedOn (s : State) (f q : Nat) : Bool :=
  match (s.heldOf f).bind (·.dec) with
  | some d => maskBit d.dest (q / 8) && d.tc == q % 8
  | none => true

/-- R222: a reported mismatch is a loss of the picture on every queue for which the stream has a record; the EOP copies of
frame `f` are dropped and counted CHECK_DROP. -/
def chkReport (s : State) (f h : Nat) : State :=
  let s := s.pics.foldl (fun s e =>
    if e.1 % 4096 = h then
      let q := e.1 / 4096
      let k := match s.copies.find? (fun c => c.frame == f && queueNo c.port c.tc == q) with
        | some c => c.pic.getD (e.2.num - 1)
        | none => if s.judgedOn f q then e.2.num - 1 else e.2.num
      picLoss s q h k 39 0
    else s) s
  let cs := s.copies.filter (fun c => c.frame == f && (c.phase == .pending || c.phase == .written))
  let s := cs.foldl (fun s c => loseCopy s c { ctr := some .CHECK_DROP, code := 0x627 }) s
  s.pics.foldl (fun s e => if e.1 % 4096 = h then picPrune s (e.1 / 4096) h else s) s

end Sys2Proof.Machine
end

