-- ==== Sys2Proof/Machine/Decide.lean ====
section
/-! DEFINITION. The decision of a held frame: the tables in the order of R75, Mastiff, the flow meter, the stored form of each
copy and the enqueue checks (R75 to R80, R88, R105 to R118, R170, R174 to R182, R195 to R198, R409, R411), and the command
DECISION. -/

namespace Sys2Proof.Machine

/-! ### The frame's tags and stored forms (R111 to R118, R170) -/

/-- A frame taken apart: addresses, VLAN tags (TPID, TCI), R-tag, and the rest from its Ethertype on. -/
structure Parts where
  addrs : List Byte
  vlans : List (Nat × Nat)
  rtag : Option Nat
  rest : List Byte
deriving DecidableEq, Repr

/-- The VLAN tags at the head of a byte string, and what follows. -/
def takeVlans : Nat → List Byte → List (Nat × Nat) × List Byte
  | 0, l => ([], l)
  | fuel + 1, l =>
    let t := beNat l 0 2
    if 4 ≤ l.length ∧ (t = 0x8100 ∨ t = 0x88A8) then
      let x := takeVlans fuel (l.drop 4)
      ((t, beNat l 2 2) :: x.1, x.2)
    else ([], l)

/-- Takes a frame apart. -/
def partsOf (bytes : List Byte) : Parts :=
  let x := takeVlans 8 (bytes.drop 12)
  let r := x.2
  if 6 ≤ r.length ∧ beNat r 0 2 = 0xF1C1 then
    { addrs := bytes.take 12, vlans := x.1, rtag := some (beNat r 4 2), rest := r.drop 6 }
  else { addrs := bytes.take 12, vlans := x.1, rtag := none, rest := r }

/-- The TCI of the last tag with a TPID. -/
def Parts.tci? (p : Parts) (tpid : Nat) : Option Nat := ((p.vlans.filter (fun t => t.1 == tpid)).getLast?).map (·.2)

/-- Where the last header that set PRESENT bit `b` starts in a held frame. -/
def Held.mark (h : Held) (b : Nat) : Option Nat := (h.marks.find? (fun m => m.1 == b)).map (·.2)

/-- An edit of a frame: at a byte, so many bytes are replaced by others. -/
structure Edit where
  at_ : Nat
  del : Nat
  ins : List Byte
deriving DecidableEq, Repr

/-- An edit placed among edits sorted by falling offset, after those at its own. -/
def Edit.into (e : Edit) : List Edit → List Edit
  | [] => [e]
  | x :: l => if e.at_ ≤ x.at_ then x :: e.into l else e :: x :: l

/-- Edits applied from the back of the frame to its front; of two at one byte the one listed first ends up behind. -/
def applyEdits (l : List Edit) (b : List Byte) : List Byte :=
  (l.foldl (fun a e => e.into a) []).foldl (fun b e => b.take e.at_ ++ e.ins ++ b.drop (e.at_ + e.del)) b

/-- R115: the edit of the VLAN tag of a copy that leaves on `vid`, or in UNTAG. The VLAN tag is the C-tag or S-tag that the walk
found; its header starts at its TCI, behind its Ethertype. An S-tag is added at the front, a C-tag behind the S-tag. -/
def vlanEdit (h : Held) (stag : Bool) (pcp vid : Nat) (untag : Bool) : List Edit :=
  let tpid := if stag then 0x88A8 else 0x8100
  match h.mark (if stag then 1 else 0) with
  | some o =>
    let t := beNat h.bytes o 2
    let t' := if t % 4096 = 0 then pcp * 8192 + (t / 4096 % 2) * 4096 + vid else t / 4096 * 4096 + vid
    [{ at_ := o - 2, del := 4, ins := if untag then [] else beBytes tpid 2 ++ beBytes t' 2 }]
  | none =>
    if untag then []
    else
      let o := if stag then 12 else match h.mark 1 with | some x => x + 2 | none => 12
      [{ at_ := o, del := 0, ins := beBytes tpid 2 ++ beBytes (pcp * 8192 + vid) 2 }]

/-- R111: the byte behind the last VLAN tag. -/
def Held.vlanEnd (h : Held) : Nat :=
  max (match h.mark 0 with | some x => x + 2 | none => 12) (match h.mark 1 with | some x => x + 2 | none => 12)

/-- R111 to R113: the edits of the R-tag: a received one is removed with `drop`, one of number `q` follows the last VLAN tag. -/
def rtagEdit (h : Held) (drop : Bool) (q : Option Nat) : List Edit :=
  (match h.mark 2 with
    | some o => if drop || q.isSome then [{ at_ := o - 2, del := 6, ins := [] }] else []
    | none => []) ++
  (match q with
    | some n => [{ at_ := h.vlanEnd, del := 0, ins := beBytes 0xF1C1 2 ++ beBytes 0 2 ++ beBytes n 2 }]
    | none => [])

/-- First byte of a held frame's IP header. -/
def Held.ipAt (h : Held) (v6 : Bool) : Nat := (h.mark (if v6 then 6 else 4)).getD 14

/-- R118: TTL or hop limit of a held frame's IP header. -/
def Held.ttl (h : Held) (v6 : Bool) : Nat := (byteAt h.bytes (h.ipAt v6 + if v6 then 7 else 8)).toNat

/-- R118: the rewrite of a routed frame: addresses, TTL or hop limit less 1, and the IPv4 header checksum. DESIGN CHOICE (log entry 85): the
checksum is updated from the old one, by 0x0100 with end-around carry, so that 0xFEFF becomes 0xFFFF. -/
def routeRewrite (h : Held) (v6 : Bool) (dmac smac : Nat) : List Byte :=
  let o := h.ipAt v6
  let t := BitVec.ofNat 8 (h.ttl v6 - 1)
  let b := overlay (overlay h.bytes 0 (beBytes dmac 6)) 6 (beBytes smac 6)
  if v6 then overlay b (o + 7) [t]
  else
    let c := beNat b (o + 10) 2 + 256
    overlay (overlay b (o + 8) [t]) (o + 10) (beBytes (if 65536 ≤ c then c - 65535 else c) 2)

/-- R170: the stored form of the copy for port `n`, without FCS. A frame that Shepherd directs to a port is stored as given. -/
def State.storedForm (s : State) (h : Held) (d : Dec) (n : Nat) : List Byte :=
  if h.direct.isSome then h.bytes else
  let untag := maskBit (wfld (s.tget .vlan d.outVid) 1 0 24) n
  let b := match d.route with
    | some e => routeRewrite h (rtV6 e) ((wd e 5).toNat + 2 ^ 32 * wfld e 6 0 16)
        ((s.reg .LKP_RTR_MAC_LO).toNat + 2 ^ 32 * s.rfld .LKP_RTR_MAC_HI 0 16)
    | none => h.bytes
  let q := if maskBit d.push n then d.seq else none
  applyEdits (rtagEdit h d.dropTag q ++ vlanEdit h (s.rbit .LKP_PORT_CFG 12 h.port) d.pcp d.outVid untag) b

/-! ### The tables (R75 to R80) -/

/-- Why a frame is dropped at decision: drop cause code of R519 and the counter. -/
structure DropAt where
  code : Nat
  ctr : Ctr
deriving DecidableEq, Repr

/-- R76: the resolved VID and PCP of a frame. -/
def State.resolveVid (s : State) (n : Nat) (key : List Byte) : Nat × Nat :=
  let sel := s.rbit .LKP_PORT_CFG 12 n
  let has := maskBit (present key) (if sel then 1 else 0)
  let tci := beNat key (if sel then 16 else 18) 2
  if has && tci % 4096 != 0 then (tci % 4096, tci / 8192)
  else (s.rfld .LKP_PORT_CFG 0 12 n, s.rfld .LKP_PORT_CFG 16 3 n)

/-- R104, R106: the keys of a frame in probing order, with their KEY_TYPE. -/
def streamKeys (key : List Byte) (vid : Nat) : List (List Word × Nat) :=
  let v := BitVec.ofNat 32 vid
  let pr := present key
  (if maskBit pr 9 then [(numWords (beNat key 24 8) 2 ++ [0, 0, 0, v], 3)] else []) ++
  (if maskBit pr 4 || maskBit pr 6 then
    [(numWords (beNat key 40 16) 4 ++ [BitVec.ofNat 32 (beNat key 60 2 + (byteAt key 56).toNat * 2 ^ 16), v], 2)] else []) ++
  [(numWords (beNat key 4 6) 2 ++ [0, 0, 0, v], 0), (numWords (beNat key 10 6) 2 ++ [0, 0, 0, v], 1)]

/-- R106: the handle of the first hit whose IN_PORTS includes the ingress port. -/
def State.streamHit (s : State) (key : List Byte) (vid n : Nat) : Option Nat :=
  ((streamKeys key vid).filterMap (fun k => s.strFind k.1 k.2)).find? (fun h => maskBit (wfld (s.tget .stream h) 6 0 24) n)

/-- What sequence recovery finds (R113). -/
structure Recovery where
  accept : Bool
  entry : List Word
  counts : List (StreamCtr × Nat)
  cause : Nat := 0
deriving DecidableEq, Repr

/-- R113: the recovery function on sequence number `q` in beat `c`. -/
def recover (e : List Word) (last : Nat) (q c : Nat) : Recovery :=
  let alg := wfld e 9 25 2
  let rs := wfld e 11 16 16
  let any := bit (wd e 10) 20
  let reset := any || decide (wfld e 10 8 12 ≤ (c + 2 ^ 32 - last) % 2 ^ 32)
  let setSeq := fun (e : List Word) => wsetFld e 11 16 16 q
  if alg = 1 then
    if reset then { accept := true, entry := wset (wsetFld (setSeq e) 10 20 1 0) 12 1, counts := [] }
    else
      let hl := wfld e 10 0 6
      let hist := wd e 12
      let d := (q + 65536 - rs) % 65536
      if d = 0 ∨ 32768 ≤ d then
        let k := (65536 - d) % 65536
        if hl ≤ k then { accept := false, entry := e, counts := [(.ROGUE, 1)], cause := 11 }
        else if bit hist k then { accept := false, entry := e, counts := [(.DUPLICATE, 1)], cause := 10 }
        else { accept := true, entry := wset e 12 (setBit hist k true), counts := [(.OUT_OF_ORDER, 1)] }
      else if hl ≤ d then { accept := false, entry := e, counts := [(.ROGUE, 1)], cause := 11 }
      else
        let lost := ((List.range d).filter (fun i => !bit hist (hl - 1 - i))).length
        let h' := ((hist.toNat * 2 ^ d) + 1) % 2 ^ hl
        { accept := true, entry := wset (setSeq e) 12 (BitVec.ofNat 32 h'), counts := if lost = 0 then [] else [(.LOST, lost)] }
  else if reset then { accept := true, entry := wsetFld (setSeq e) 10 20 1 0, counts := [] }
  else if q = rs then { accept := false, entry := e, counts := [(.DUPLICATE, 1)], cause := 10 }
  else { accept := true, entry := setSeq e, counts := if (q + 65536 - rs) % 65536 = 1 then [] else [(.OUT_OF_ORDER, 1)] }

/-- R245: an accepted decision writes the sequence mirror of its stream. -/
def mirrorWrite (s : State) (h : Nat) : State :=
  let e := s.tget .stream h
  let m : Mirror := { genSeq := wfld e 11 0 16, recSeq := wfld e 11 16 16, history := (wd e 12).toNat,
                      lastAcc := (wd (s.tget .lastAcc h) 0).toNat, takeAny := bit (wd e 10) 20, blocked := bit (wd e 8) 15 }
  { s with twin := { s.twin with mirror := SMap.set {} s.twin.mirror h m } }

/-- Step 2 of R75 for a frame with a stream hit: the drop if any, the decision's stream fields, and the state. -/
def streamStep (s : State) (h : Held) (d : Dec) (key : List Byte) (hd : Nat) : Option DropAt × Dec × State :=
  let s := s.bump (.stream hd .FRAMES)
  let e := s.tget .stream hd
  let s := if bit (wd e 6) 28 then s else s.tset .stream hd (wsetFld e 6 28 1 1) false 12
  let e := s.tget .stream hd
  let d := { d with stream := some hd, fresh := wfld e 8 16 16, picture := bit (wd e 9) 28, push := wfld e 9 0 24,
                    policer := if bit (wd e 7) 25 then some (wfld e 7 15 10) else none }
  let sdu := wfld e 8 0 14
  if bit (wd e 8) 15 then (some { code := 9, ctr := .stream hd .STREAM_BLOCKED }, d, s)
  else if sdu ≠ 0 ∧ sdu < h.wire then
    let s := if bit (wd e 8) 14 then (s.twr .stream hd (wsetFld e 8 15 1 1)).mark (Space.stream.key hd) true 24 false [Space.lastAcc.key hd] else s
    (some { code := 8, ctr := .stream hd .SDU_OVERSIZE }, d, s)
  else if bit (wd e 9) 24 then
    let g := wfld e 11 0 16
    (none, { d with seq := some g, dropTag := true }, (s.twr .stream hd (wsetFld e 11 0 16 (g + 1))).mark (Space.stream.key hd) true 24 false [Space.lastAcc.key hd])
  else if wfld e 9 25 2 ≠ 0 then
    if maskBit (present key) 2 then
      let q := beNat key 22 2
      let r := recover e (wd (s.tget .lastAcc hd) 0).toNat q (s.beat.toNat % 2 ^ 32)
      if r.accept then
        let s := r.counts.foldl (fun s c => s.bump (.stream hd c.1) c.2) s
        let s := ((s.twr .stream hd r.entry).twr .lastAcc hd [BitVec.ofNat 32 s.beat.toNat]).mark (Space.stream.key hd) true 24 false
          [Space.lastAcc.key hd]
        (none, { d with seq := some q, dropTag := true,
                        gap := r.counts.any (fun c => c.1 == .LOST) && s.rbit .TM_CTRL 2 }, s)
      else (some { code := r.cause, ctr := .stream hd (if r.cause = 11 then .ROGUE else .DUPLICATE) }, d, s)
    else (none, d, s.bump (.stream hd .NO_TAG))
  else (none, d, s)

/-- R89: is learning allowed but for the blocked list and the limit. -/
def State.learnOn (s : State) (n mac : Nat) (vlan : List Word) : Bool :=
  s.rbit .LKP_CTRL 0 && s.rbit .LKP_PORT_CFG 13 n && bit (wd vlan 0) 25 && !(mac / 2 ^ 40 % 2 == 1) && mac != 0

/-- R88, R89: a learn request, unless the blocked list or the port's limit refuses it. -/
def wantLearn (s : State) (fid mac n : Nat) (vlan : List Word) : State :=
  if !s.learnOn n mac vlan then s
  else if s.act.blocked.contains (fid, mac) then s.bump (.device .LEARN_BLOCKED)
  else if s.atLimit n then s.bump (.port n .LEARN_LIMIT)
  else queueLearn s { fid, mac, port := n }

/-- R88: step 3 of R75: the drop if any, and the state. -/
def sourceStep (s : State) (n fid mac : Nat) (vlan : List Word) : Option DropAt × State :=
  match s.fdbFind fid mac with
  | none => (none, wantLearn s fid mac n vlan)
  | some i =>
    let e := s.tget .fdb i
    if bit (wd e 2) 10 then (some { code := 3, ctr := .port n .SA_DROP }, s)
    else if fdbMc e then (none, s)
    else if fdbStatic e then (none, if fdbDest e = n then s else s.bump (.port n .STATIC_MOVE))
    else if fdbDest e = n then
      (none, if wfld e 2 21 8 = s.tickNow then s else queueRefresh s { slot := i, fid, mac, tick := s.tickNow })
    else (none, wantLearn s fid mac n vlan)

/-- What step 4 of R75 finds. -/
structure Route4 where
  dest : Nat
  outVid : Nat
  route : Option (List Word)
  pri : Option Nat
deriving DecidableEq, Repr

/-- R77 rule 3, R118: a frame to a routed interface. -/
def routeStep (s : State) (h : Held) (key : List Byte) (vid : Nat) (pri : Option Nat) : DropAt ⊕ Route4 :=
  let v6 := maskBit (present key) 6
  match s.rtLookup v6 (beNat key 40 16) with
  | none => .inl { code := 6, ctr := .port h.port .NO_ROUTE }
  | some r =>
    if h.ttl v6 ≤ 1 then .inl { code := 7, ctr := .port h.port .TTL_EXPIRED }
    else match wfld r 4 10 2 with
    | 0 => .inr { dest := 1 <<< (wfld r 7 0 5), outVid := wfld r 6 16 12, route := some r, pri }
    | 1 => .inr { dest := 1 <<< 22, outVid := vid, route := none, pri }
    | _ => .inr { dest := 0, outVid := vid, route := none, pri }

/-- R77: step 4 of R75, with the refresh of R98. Only unicast is routed (R118): a group address, or an entry whose DEST is a group, is
forwarded by its entry. -/
def destStep (s : State) (h : Held) (key : List Byte) (vid fid : Nat) (vlan : List Word) (st : Option Nat) :
    (DropAt ⊕ Route4) × State :=
  let member := wfld vlan 0 0 24
  let grp := match st with
    | some hd => let e := s.tget .stream hd; if bit (wd e 7) 10 then some (wfld e 7 0 10) else none
    | none => none
  match grp with
  | some g => (.inr { dest := s.groupPorts g, outVid := vid, route := none, pri := none }, s)
  | none =>
    let mac := beNat key 4 6
    match s.fdbFind fid mac with
    | some i =>
      let e := s.tget .fdb i
      let pri := if bit (wd e 2) 13 then some (wfld e 2 14 3) else none
      let s := if s.rbit .LKP_CTRL 2 && !fdbStatic e && !fdbMc e && (wfld e 2 21 8 != s.tickNow) then
          queueRefresh s { slot := i, fid, mac, tick := s.tickNow } else s
      let ip := maskBit (present key) 4 || maskBit (present key) 6
      if bit (wd e 2) 11 then (.inl { code := 4, ctr := .port h.port .DA_DROP }, s)
      else if bit (wd e 2) 12 && bit (wd vlan 2) 14 && ip && !fdbMc e && !(mac / 2 ^ 40 % 2 == 1) then (routeStep s h key vid pri, s)
      else if fdbMc e then (.inr { dest := s.groupPorts (fdbDest e), outVid := vid, route := none, pri }, s)
      else (.inr { dest := 1 <<< fdbDest e, outVid := vid, route := none, pri }, s)
    | none =>
      let dest :=
        if mac = 0xFFFFFFFFFFFF then member
        else if mac / 2 ^ 40 % 2 = 1 then (if bit (wd vlan 2) 13 then member else 0)
        else (if bit (wd vlan 2) 12 then member else 0)
      (.inr { dest, outVid := vid, route := none, pri := none }, s)

/-- The ports that exist on this part (R4). -/
def State.portMask (s : State) : Nat := match s.part with | .am7240 => 0xFFFFFF | .am7220 => 0xFFFFF3

/-- R380: Ezsyn requests and responses never leave through P22: the ports to which a frame may go (log entry 91). -/
def State.ezMask (s : State) (h : Held) : Nat := if beNat (partsOf h.bytes).rest 0 2 = s.rfld .WIN_CTRL 0 16 then 0xBFFFFF else 0xFFFFFF

/-- R245: a decision that has ended writes the mirror of its frame's stream. -/
def mirrorEnd (s : State) (st : Option Nat) : State := match st with | some hd => mirrorWrite s hd | none => s

/-- R136, R485: the decision of a frame that Shepherd directs to port `p`, which no table changes (log entry 74). -/
def directDec (s : State) (h : Held) (key : List Byte) (p : Nat) : Dec :=
  let vp := s.resolveVid h.port key
  { vid := vp.1, outVid := vp.1, fid := 0, pcp := vp.2, stream := none, fresh := 0, picture := false, seq := none, dropTag := false, push := 0,
    route := none, dest := (1 <<< p) &&& s.portMask, single := true, tc := s.rfld .LKP_PCP_MAP (3 * vp.2) 3 h.port, policer := none,
    gap := false, szone := s.srcZone h.port h.src }

/-- Steps 1 to 6 of R75: a drop or the decision before Mastiff, and the state. -/
def tableSteps (s : State) (h : Held) (key : List Byte) : (DropAt ⊕ Dec) × State :=
  let n := h.port
  let vp := s.resolveVid n key
  let vid := vp.1
  let vlan := s.tget .vlan vid
  if h.direct.isSome then (.inr (directDec s h key (h.direct.getD 0)), s)
  else if vid = 0xFFF ∨ !bit (wd vlan 0) 24 then (.inl { code := 1, ctr := .port n .VLAN_INVALID }, s)
  else if !maskBit (wfld vlan 0 0 24) n then (.inl { code := 2, ctr := .port n .VLAN_INGRESS }, s)
  else
    let fid := wfld vlan 2 0 12
    let d : Dec := { vid, outVid := vid, fid, pcp := vp.2, stream := none, fresh := 0, picture := false, seq := none,
                     dropTag := false, push := 0, route := none, dest := 0, single := false, tc := 0, policer := none, gap := false,
                     szone := s.srcZone n h.src }
    let st := s.streamHit key vid n
    let x : Option DropAt × Dec × State := match st with
      | some hd => let y := streamStep s h d key hd; y
      | none => (none, d, s)
    let y := sourceStep x.2.2 n fid (beNat key 10 6) vlan
    match x.1, y.1 with
    | some c, _ => (.inl c, mirrorEnd y.2 st)
    | none, some c => (.inl c, mirrorEnd y.2 st)
    | none, none =>
      match destStep y.2 h key vid fid vlan st with
      | (.inl c, s) => (.inl c, mirrorEnd s st)
      | (.inr r, s) =>
        let ov := s.tget .vlan r.outVid
        let mem := if bit (wd ov 0) 24 then wfld ov 0 0 24 else 0
        let dest := maskClr (r.dest &&& mem &&& s.portMask &&& s.ezMask h) n
        if dest = 0 then (.inl { code := 5, ctr := .port n .NO_DEST }, mirrorEnd s st)
        else
          let tc := match st with
            | some hd => let e := s.tget .stream hd; if bit (wd e 7) 14 then some (wfld e 7 11 3) else r.pri
            | none => r.pri
          let tc := match tc with | some t => t | none => s.rfld .LKP_PCP_MAP (3 * vp.2) 3 n
          (.inr { x.2.1 with outVid := r.outVid, route := r.route, dest, single := maskCount dest 24 == 1, tc }, s)

/-! ### The flow meter (R195 to R198) -/

/-- R197: the colour of a frame by meter `m`: 0 green, 1 yellow, 2 red; with the buckets and the counts. -/
def meterStep (s : State) (m b : Nat) : Nat × State :=
  let e := s.tget .meter m
  let tc := (wd e 0).toNat
  let tp := (wd e 1).toNat
  let c := if tp < b * 256 then 2 else if tc < b * 256 then 1 else 0
  let tp' := if c = 2 then tp else tp - b * 256
  let tc' := if c = 0 then tc - b * 256 else tc
  let s := s.setAct (s.act.wr (Space.meter.key m) [BitVec.ofNat 32 tc', BitVec.ofNat 32 tp'])
  let s := { s with twin := { s.twin with metered := if s.twin.metered.contains m then s.twin.metered else s.twin.metered ++ [m] } }
  let s := match c with
    | 0 => (s.bump (.meter m .GREEN_FRAMES)).bump (.meter m .GREEN_BYTES) b
    | 1 => (s.bump (.meter m .YELLOW_FRAMES)).bump (.meter m .YELLOW_BYTES) b
    | _ => (s.bump (.meter m .RED_FRAMES)).bump (.meter m .RED_BYTES) b
  (c, s)

/-! ### Enqueue (R174 to R182) -/

/-- R216: the picture record of a pair, allocated when the first copy is judged; none when the tracker is off or full. -/
def picAlloc (s : State) (q hd : Nat) : Option PicRec × State :=
  if !s.rbit .TM_CTRL 1 then (none, s)
  else match s.pic q hd with
    | some r =>
      let r := { r with last := s.beat }
      (some r, { s with pics := SMap.put s.pics (picKey q hd) r })
    | none =>
      if s.pics.length < 2048 then
        let r : PicRec := { num := 0, drops := [], last := s.beat }
        (some r, { s with pics := SMap.put s.pics (picKey q hd) r })
      else (none, { s.bump (.queue q .PIC_NO_TRACK) with picFull := true })

/-- R217: the picture number advances after a copy with EOP is judged. -/
def picJudged (s : State) (q hd : Nat) (eop : Bool) : State :=
  match s.pic q hd with
  | none => s
  | some r =>
    let s := if eop then { s with pics := SMap.put s.pics (picKey q hd) { r with num := r.num + 1 } } else s
    picPrune s q hd

/-- R174: the first check that refuses a copy, with its picture record. -/
def State.enqueueCheck (s : State) (c : Copy) (rec? : Option PicRec) : Option Nat :=
  let n := c.port
  let q := queueNo n c.tc
  if n < 22 && ((s.port n).hold == .down) then some 1
  else if s.maxLen n < c.len + s.growth n c.bytes then some 2
  else if (match rec? with | some r => r.follows r.num | none => false) then some 3
  else if n < 22 && (match (s.port n).gate.maxWin c.tc with | some w => decide (w < s.txTime c) | none => false) then some 4
  else if !s.admits q (cellsOf c.len) c.yellow then some 5
  else none

/-- The counter and the picture-loss cause of a refusal (R174, R218, R519). -/
def refusal (k : Nat) : QueueCtr × Option Nat :=
  match k with
  | 1 => (.LINK_DOWN, some 16)
  | 2 => (.TX_OVERSIZE, some 17)
  | 3 => (.PICTURE_DROP, none)
  | 4 => (.NEVER_FITS, some 34)
  | _ => (.ADMIT_DROP, some 18)

/-- Judges one destination copy under R174: the check that refused, or none when it was admitted, and the state. -/
def judgeCopy (s : State) (c : Copy) : Option Nat × State :=
  let q := queueNo c.port c.tc
  let x : Option PicRec × State := match c.picture, c.stream with
    | true, some hd => picAlloc s q hd
    | _, _ => (none, s)
  let s := x.2
  let num := x.1.map (·.num)
  match s.enqueueCheck c x.1 with
  | none =>
    let s := { s with copies := s.copies ++ [{ c with pic := num }] }
    let s := match num, c.stream with | some _, some hd => picJudged s q hd c.eop | _, _ => s
    (none, s)
  | some k =>
    let r := refusal k
    let s := s.bump (.queue q r.1)
    let s := match num, c.stream, r.2 with
      | some m, some hd, some cause => picLoss s q hd m cause c.seq
      | _, _, _ => s
    let s := match num, c.stream with | some _, some hd => picJudged s q hd c.eop | _, _ => s
    (some k, resolveTrack s c.track c.port (some { ctr := none, code := 0x500 + k, down := k == 1 }))

/-- R218, R221: a copy that is judged and lost before the enqueue checks: red, dropped yellow, or after a recovery gap. -/
def judgeLost (s : State) (c : Copy) (cause : Nat) : State :=
  match c.picture, c.stream with
  | true, some hd =>
    let q := queueNo c.port c.tc
    let x := picAlloc s q hd
    match x.1 with
    | none => x.2
    | some r => picJudged (picLoss x.2 q hd r.num cause c.seq) q hd c.eop
  | _, _ => s

/-- R411: cells of the linked copies that a tap has not yet read. -/
def State.backlog (s : State) (t : Nat) : Nat :=
  s.copies.foldl (fun a c => if c.tap.contains t && (c.phase == .linked || c.phase == .sending || c.phase == .tapOnly) then a + cellsOf c.len else a) 0

/-- R409, R411: the taps that mark the first admitted copy `c` of its frame; a tap that skips it records a gap. -/
def tapMark (s : State) (c : Copy) : State :=
  match c.stream with
  | none => s
  | some hd =>
    if !(s.ret.mode == .recording || s.ret.mode == .post) then s
    else (List.range 2).foldl (fun s t =>
      let named := s.rbit .REC_TAP_CFG 0 t &&
        (List.range 16).any (fun k => s.rbit .REC_TAP_STREAM 31 t k && s.rfld .REC_TAP_STREAM 0 12 t k == hd)
      let tp := s.rtap t
      if !named || tp.frozen then s
      else
        let lim := max (s.rfld .REC_TAP_CFG 16 8 t) 1 * 16
        if tp.skipPic.contains hd || decide (lim < s.backlog t + cellsOf c.len) then
          let skip := if c.picture then
              (if c.eop then tp.skipPic.filter (· != hd) else if tp.skipPic.contains hd then tp.skipPic else tp.skipPic ++ [hd])
            else tp.skipPic
          (s.setTap t { tp with skipPic := skip, queue := tapGap s t tp.queue c }).bump (.tap t .GAP_COPIES)
        else match s.copyOf c.id with
          | some c' => s.setCopy { c' with tap := c'.tap ++ [t] }
          | none => s) s

/-- R180: the PARTIAL_MC record of a frame with refused copies. -/
def partialMc (s : State) (port : Nat) (stream : Option Nat) (refused : List (Nat × Nat)) : State :=
  if s.rbit .BUF_CTRL 0 && refused.any (fun r => r.2 == 5 || r.2 == 1) then
    let hd := stream.getD 65535
    if s.lim.pmStr.contains hd ∨ s.rfld .BUF_EVT_CFG 0 8 ≤ s.lim.pm then s.bump (.device .PARTIAL_MC_SUPPRESSED)
    else
      let m := refused.foldl (fun a r => maskSet a r.1) 0
      { s.emit 0x30 port hd [BitVec.ofNat 32 m] with lim := { s.lim with pm := s.lim.pm + 1, pmStr := s.lim.pmStr ++ [hd] } }
  else s

/-- The copy of a held frame for a port, not yet judged. -/
def State.mkCopy (s : State) (h : Held) (d : Dec) (key : List Byte) (yellow : Bool) (n : Nat) : Copy :=
  let bytes := match d.forms.find? (fun x => x.1 == n) with | some x => x.2 | none => s.storedForm h d n
  { id := s.nextCopy, frame := h.id, inPort := h.port, src := h.src, port := n, tc := d.tc, bytes, len := bytes.length + 4,
    desc := (Config.descIndex s.nextCopy).toNat, cell := s.pickCell, picture := d.picture,
    eop := s.eop key, tap := [], yellow, stream := d.stream, fresh := d.fresh, track := h.track, phase := .pending, enq := 0,
    pic := none, first := false, tsReq := h.tsReq,
    rxStamp := if maskBit (present key) 13 then h.stamp else none, arrive := h.arrive, seq := s.nextCopy }

/-- R182: a frame of a stream with a bound snooper and no admitted copy passes the write bus once, writes suppressed. -/
def snoopUnwritten (s : State) (h : Held) (d : Dec) (key : List Byte) : State :=
  match d.stream with
  | none => s
  | some hd =>
    let x := snoop s hd h.bytes h.video (beNat key 36 2) (s.eop key)
    if x.1 then chkReport x.2 h.id hd else x.2

/-- R174, R178 to R182: judges the copies of a frame in ascending port order. -/
def enqueueAll (s : State) (h : Held) (d : Dec) (key : List Byte) (yellow : Bool) : State :=
  let ports := maskList d.dest 24
  let multi := decide (2 ≤ ports.length)
  let s := match s.heldOf h.id with | some h' => s.setHeld { h' with dec := some d } | none => s
  let s := match h.track with
    | none => s
    | some t => match SMap.find? s.tracks t with
      | none => s
      | some r => { s with tracks := SMap.put s.tracks t { r with left := ports.length } }
  let x := ports.foldl (fun (acc : List (Nat × Nat) × Nat × State) n =>
    let s := acc.2.2
    let c := s.mkCopy h d key yellow n
    let s := { s with nextCopy := s.nextCopy + 1 }
    if d.gap && d.picture then
      let s := (judgeLost s c 43).bump (.queue (queueNo n d.tc) .PIC_GAP)
      (acc.1, acc.2.1, resolveTrack s c.track n (some { ctr := none, code := 0x62B }))
    else match judgeCopy s { c with first := acc.2.1 == 0 } with
      | (none, s) => (acc.1, acc.2.1 + 1, if acc.2.1 = 0 then tapMark s c else s)
      | (some k, s) => (acc.1 ++ [(n, k)], acc.2.1, if multi then s.bump (.port n .MC_COPY_DROP) else s)) ([], 0, s)
  let s := x.2.2
  let s := if multi then partialMc s h.port d.stream x.1 else s
  let s := if x.2.1 = 0 then snoopUnwritten s h d key else s
  let s := match s.heldOf h.id with
    | some h' => s.setHeld { h' with admitted := true }
    | none => s
  freeHeld s h.id

/-- R195 to R198, R245: after Mastiff the decision is complete: the stream's mirror is written, and the frame meets its meter and then the
enqueue checks. -/
def afterMastiff (s : State) (h : Held) (d : Dec) (key : List Byte) : State :=
  let s := mirrorEnd s d.stream
  if d.dest = 0 then dropFrame s h 4 12
  else
    match d.policer with
    | none => enqueueAll s h d key false
    | some m =>
      let x := meterStep s m h.wire
      let s := x.2
      if x.1 = 2 ∨ (x.1 = 1 ∧ s.rbit .TM_POL_CIR 24 m) then
        let cause := if x.1 = 2 then 13 else 14
        let s := s.bump (.meter m .DROPPED)
        let s := (maskList d.dest 24).foldl (fun s n => judgeLost s (s.mkCopy h d key false n) cause) s
        dropFrame s h 4 cause
      else enqueueAll s h d key (x.1 == 1)

/-- R181: does a frame need a tracking record. -/
def srcTracked : FrameSrc → Bool
  | .host _ _ => true
  | .shepherd _ => true
  | _ => false

/-- R181: the frame with a tracking record if it needs one; none when no record is free. -/
def takeTrack (s : State) (h : Held) : Option (Held × State) :=
  if !srcTracked h.src || h.track.isSome then some (h, s)
  else match (List.range 2048).find? (fun t => (SMap.find? s.tracks t).isNone) with
    | none => none
    | some t =>
      let r : Track := { owner := h.src, left := 0, lost := 0, cause := none, safe := false, down := false, stamp := none }
      let h := { h with track := some t }
      some (h, ({ s with tracks := SMap.put s.tracks t r }).setHeld h)

/-- The decision of a parsed frame by the accepted plane. One that waits on a hook keeps the stored forms of its copies (R21, R80). -/
def decide1 (s : State) (h : Held) (key : List Byte) : State :=
  match tableSteps s h key with
  | (.inl c, s) => dropFrame (s.bump c.ctr) h 4 c.code
  | (.inr d, s) =>
    let x := mastiff s h d key
    if x.2.1 = 0 then afterMastiff x.2.2 h x.1 key
    else x.2.2.setHeld { h with dec := some { x.1 with forms := (maskList x.1.dest 24).map (fun n => (n, s.storedForm h x.1 n)) },
                                waits := x.2.1, old := [] }

/-- DECISION (R75): the accepted plane decides a held frame; a frame parsed under another graph is parsed again first (R72),
and a frame that finds no tracking record waits (R181). -/
def execDecision (f : Nat) (s : State) : Ans :=
  onDie s (fun s =>
    let s := sliceClose s
    if s.twin.accepted.isNone then s
    else match s.heldOf f with
      | none => s
      | some h =>
        if h.dec.isSome || h.admitted then s
        else
          let s := if h.key.isNone || h.bank != s.graphEpoch then parseHeld s h else s
          match s.heldOf f with
          | none => s
          | some h => match h.key, takeTrack s h with
            | some key, some (h, s) => decide1 s h key
            | _, _ => s)

/-- Registers listed as given: a value, or not listed. -/
def relist (regs : SMap Word) (l : List (Nat × Option Word)) : SMap Word :=
  l.foldl (fun m x => match x.2 with | some w => SMap.put m x.1 w | none => SMap.erase m x.1) regs

/-- R21: `f` under the configuration registers with which the decision of `h` began. -/
def State.underOld (s : State) (h : Held) (f : State → State) : State :=
  let now := h.old.map (fun x => (x.1, SMap.find? s.regs x.1))
  let t := f { s with regs := relist s.regs h.old }
  { t with regs := relist t.regs now }

/-- R21: a commit is about to change the registers `addrs`: a decision that waits on a hook keeps the ones it began with. -/
def keepOld (s : State) (addrs : List Nat) : State :=
  { s with held := s.held.map (fun h =>
    if h.dec.isSome && !h.admitted then
      { h with old := h.old ++ (addrs.filter (fun a => !h.old.any (fun x => x.1 == a))).map (fun a => (a, SMap.find? s.regs a)) }
    else h) }

/-- R137: a hook request of a held frame is answered; with the last answer the frame goes on, under the configuration with which its
decision began (R21). A decision that ends while no plane is accepted is discarded, and its frame stays (R234). -/
def hookAnswer (s : State) (rq : HookReq) (v : Nat ⊕ ZoneCtr) : State :=
  match s.heldOf rq.frame with
  | none => s
  | some h => match h.dec, h.key with
    | some d, some key => s.underOld h (fun s =>
      let x := applyVerdict s h d key rq v
      let w := h.waits - 1 + x.2.1
      let h := { h with dec := some x.1, waits := w }
      if w ≠ 0 then x.2.2.setHeld h
      else if s.twin.accepted.isNone then x.2.2.setHeld h.undecided
      else afterMastiff (x.2.2.setHeld h) h x.1 key)
    | _, _ => s

/-- COPY_WRITE (R27): an admitted copy is written into its cells, in decision order; an uncorrectable holding-area word drops the frame (R169), a
correctable one is counted (R188). -/
def execCopyWrite (k : Nat) (ecc : HoldEcc) (s : State) : Ans :=
  onDie s (fun s => match s.copyOf k with
    | none => s
    | some c =>
      if c.phase != .pending || s.copies.any (fun x => x.phase == .pending && decide (x.seq < c.seq)) then s
      else if ecc = .bad then
        let s := s.bump (.port c.inPort .HOLD_ECC)
        let cs := s.copies.filter (fun x => x.frame == c.frame && x.phase == .pending)
        let s := cs.foldl (fun s x => loseCopy s x { ctr := none, code := 0x60F, pic := some 15 }) s
        s.dropHeld c.frame
      else
        let s := if ecc = .ce then s.bump (.device .HOLD_CE) else s
        let s := s.setCopy { c with phase := .written }
        let s := match c.first, c.stream, s.heldOf c.frame with
          | true, some hd, some h => (match h.key with
            | some key =>
              let x := snoop s hd h.bytes h.video (beNat key 36 2) c.eop
              if x.1 then chkReport x.2 c.frame hd else x.2
            | none => s)
          | _, _, _ => s
        freeHeld s c.frame)

/-- COPY_LINK (R172): a wholly written copy joins its queue's tail, in the decision order of the queue's frames; in a
switchover gap no copy is linked (R228, R249). -/
def execCopyLink (k : Nat) (s : State) : Ans :=
  onDie s (fun s => match s.copyOf k with
    | none => s
    | some c =>
      let q := queueNo c.port c.tc
      let earlier := s.copies.any (fun x => queueNo x.port x.tc == q && decide (x.seq < c.seq) &&
        (x.phase == .pending || x.phase == .written))
      if c.phase != .written || earlier || s.twin.accepted.isNone then s
      else
        let s := accrue s q
        let v := s.queue q
        let first := v.list.isEmpty
        let s := s.setQueue q { v with list := v.list ++ [k], deficit := if first then 0 else v.deficit, newTurn := first || v.newTurn }
        let s := if first && decide (c.tc < 4) then s.updPort c.port (fun p => { p with drr := p.drr ++ [c.tc] }) else s
        let s := (s.setCopy { c with phase := .linked, enq := s.time.cnt }).bump (.queue q .ENQ_COPIES)
        c.tap.foldl (fun s t => let tp := s.rtap t; s.setTap t { tp with queue := tp.queue ++ [.copy k] }) s)

/-- AUDIT (R192): BUF_CMD.AUDIT starts an audit if none is running. -/
def execAudit (s : State) : Ans :=
  onBar0 s .BUF_CMD 0 (fun s => if s.audit = 0 then { s with audit := 128 } else s)

/-- PIC_RECORD_FREE (R216): a record unused for 2^17 beats, with no copy of its pair queued, is freed. -/
def execPicRecordFree (q : Fin 192) (h : Fin 4096) (s : State) : Ans :=
  onDie s (fun s => match s.pic q h with
    | none => s
    | some r =>
      let queued := s.copies.any (fun c => queueNo c.port c.tc == q.val && c.stream == some h.val && c.counted && c.phase != .tapOnly)
      if 2 ^ 17 ≤ (s.beat - r.last).toNat ∧ !queued then
        { s with pics := SMap.erase s.pics (picKey q h), picFull := false }
      else s)

end Sys2Proof.Machine
end

