-- ==== Sys2Proof/Machine/Ports.lean ====
section
/-! DEFINITION. The ports: settings at enable, link state, remembered coefficients, the half-duplex media, frame reception,
and the ports going down (chapter 02; R167, R183 to R187). -/

namespace Sys2Proof.Machine

/-! ### Settings at enable (R30, R33, R34) -/

/-- R30: is a SPEED code supported by the class of port `n` (0 = class default). -/
def speedOk (n : Nat) (hMode : Bool) (c : Nat) : Bool :=
  match portClass n with
  | .b => c == 0 || c == 1 || c == 2 || c == 3
  | .c => c == 0 || c == 3 || c == 4
  | .f => c == 0 || c == 5
  | .m => c == 0 || c == 6
  | .h => if hMode then decide (c ≤ 5) else c == 0 || c == 1
  | _ => false

/-- R34, PORT_CTRL.ROLE: is a ROLE code supported. -/
def roleOk (n : Nat) (anEn : Bool) (c : Nat) : Bool :=
  match portClass n with
  | .b => decide (c ≤ 1) || (c == 2 && anEn)
  | .c => decide (c ≤ 1) || (c == 2 && anEn)
  | .f => decide (c ≤ 1)
  | _ => true

/-- R34: is AN_EN = 1 supported. -/
def anOk (n : Nat) (hMode : Bool) : Bool :=
  match portClass n with
  | .b => true
  | .c => true
  | .h => hMode
  | _ => false

/-- R30, R34: does an M port's PLCA configuration name a segment that the class does not support: fewer than 2 or more than 8 nodes, or
a node ID not below NODE_CNT; PLCA on or off (DEDUCED, log entry 78). -/
def State.plcaBad (s : State) (n : Nat) : Bool :=
  let cnt := s.rfld .PORT_PLCA_CFG 12 8 n
  portClass n == .m && (decide (cnt < 2 ∨ 8 < cnt) || decide (cnt ≤ s.rfld .PORT_PLCA_CFG 4 8 n))

/-- R34: the applied settings of port `n` are not supported by its class. -/
def State.cfgBad (s : State) (n : Nat) : Bool :=
  let p := s.port n
  !speedOk n p.hMode p.speed || !roleOk n p.anEn p.role || (p.anEn && !anOk n p.hMode) || p.loopback == 3 || s.plcaBad n

/-- The word index of port `n`'s coefficient record in the keep domain: the twelve B and C ports (R36). -/
def State.coef (s : State) (n k : Nat) : Word := s.reg .KEEP_COEF n k

/-- R36: the check word that covers words 0 to 22 of a record. -/
def coefCheck (ws : List Word) : Word := crc32 (wordsBytes (ws.take 23))

/-- R36, R37: does the port's record pass its check. -/
def State.coefValid (s : State) (n : Nat) : Bool :=
  decide (n < 12) && s.coef n 23 == coefCheck ((List.range 23).map (s.coef n))

/-- R37: the record is used at this link start, with the speed and role about to be used. -/
def State.coefMatch (s : State) (n speed : Nat) (leader : Bool) : Bool :=
  s.rbit .PORT_FASTLINK_CFG 0 n && s.coefValid n && decide (fld (s.coef n 0) 0 3 = speed) && bit (s.coef n 0) 3 == leader

/-- R33, R37: the link of a started port starts: with forced settings the record is compared at once; with negotiation the comparison
is made at its end, which the PHY reports with the link or with a refresh that failed. -/
def linkStart (s : State) (n : Nat) : State :=
  let p := s.port n
  let speed := if p.speed = 0 then defaultSpeed n else p.speed
  let run := decide (n < 12) && p.started && !s.rbit .PORT_LINK_STATUS 7 n
  s.setPort n { p with
    trainAt := s.time.cnt
    train := if !p.started then .none else if run && p.anEn then .negotiate
      else if run && s.coefMatch n speed (p.role == 1) then .refresh else .cold }

/-- R37: has a refresh training that began at a counter value run for FAST_TMO (312,500 counter steps to the ms). -/
def State.refreshOver (s : State) (n : Nat) (since : Wide) : Bool :=
  decide (since.toNat + s.rfld .PORT_FASTLINK_CFG 4 4 n * 312500 ≤ s.time.cnt.toNat)

/-- R37: the loaded taps are discarded and the port trains from cold. -/
def fastFallback (s : State) (n : Nat) : State :=
  (s.updPort n (fun p => { p with train := .cold })).flag .PORT_LINK_EVENT .PORT_LINK_IRQ_EN 2 n

/-- R33: the stored settings of PORT_CTRL take effect. -/
def applySettings (s : State) (n : Nat) : State :=
  let w := s.reg .PORT_CTRL n
  let s := s.updPort n (fun p => { p with
    started := bit w 0, speed := fld w 1 3, role := fld w 4 2, anEn := bit w 6, hMode := bit w 7,
    loopback := fld w 8 2, polAuto := bit w 10, attempts := 0 })
  linkStart (s.setRbit .PORT_LINK_STATUS 7 (bit w 0 && s.cfgBad n) n) n

/-! ### Ports going down (R42, R183 to R187) -/

/-- R185: the flush of a port that becomes DOWN: its queues, its learned entries and the record. -/
def portFlush (s : State) (n : Nat) : State :=
  let x := flushQueues (accruePort s n) n { ctr := some .LINK_FLUSH, code := 0x625, down := true, pic := some 37 }
  let s := flushOrDefer x.2 n
  let s := s.emit 0x31 n x.1
  s.updPort n (fun p => { p with hold := if s.up n then .normal else .down, flushDue := false })

/-- R185: is port `n` still HELD at beat d + LINK_HOLD or after. -/
def State.holdOver (s : State) (n : Nat) : Bool :=
  match (s.port n).hold with
  | .held d => passed (d + BitVec.ofNat 48 (s.rfld .BUF_PORT_HOLD 0 16 n)) s.beat
  | _ => false

/-- R41, R42, R183: UP of port `n` falls. -/
def linkFall (s : State) (n : Nat) : State :=
  if !s.up n then s
  else
    let s := s.setReg .PORT_LINK_STATUS (s.reg .PORT_LINK_STATUS n &&& 0x80) n
    let s := (s.flag .PORT_LINK_EVENT .PORT_LINK_IRQ_EN 0 n).emit 0x00 n 0
    let s := s.setRbit .PORT_PLCA_STATUS 0 false n
    let s := abortTx s n { ctr := some .TX_ABORT, code := 0x623, down := true, pic := some 35 }
    let s := s.updPort n (fun p => { p with attempts := 0, hold := match p.hold with | .normal => .held s.beat | h => h })
    let s := linkStart s n
    if s.rfld .BUF_PORT_HOLD 0 16 n = 0 then portFlush s n else s

/-- R187: a NORMAL or HELD port becomes DOWN at the next boundary. -/
def flushNext (s : State) (n : Nat) : State :=
  s.updPort n (fun p => { p with flushDue := p.hold != .down })

/-- R33, R187: a write to PORT_CTRL. EN = 0 takes the port down at the next boundary whether it was enabled before or not. -/
def portCtrlWrite (s : State) (n : Nat) (w : Word) : State :=
  let was := s.rbit .PORT_CTRL 0 n
  let s := s.setReg .PORT_CTRL (w &&& 0x7FF) n
  if bit w 31 then applySettings (flushNext (linkFall s n) n) n
  else if bit w 0 && !was then applySettings s n
  else if !bit w 0 then
    let s := s.updPort n (fun p => { p with started := false })
    let s := flushNext (linkFall s n) n
    linkStart (s.setRbit .PORT_LINK_STATUS 7 false n) n
  else s

/-- PORT_ENABLE (R33): PORT_CTRL is written with EN = 1. -/
def execPortEnable (n : Fin 22) (w : Word) (s : State) : Ans :=
  onBar0 s .PORT_CTRL n (fun s => portCtrlWrite s n (setBit (setBit w 0 true) 31 false))

/-- PORT_DISABLE (R34, R187): PORT_CTRL is written with EN = 0. -/
def execPortDisable (n : Fin 22) (w : Word) (s : State) : Ans :=
  onBar0 s .PORT_CTRL n (fun s => portCtrlWrite s n (setBit (setBit w 0 false) 31 false))

/-- SOFT_RST (R33, R187): PORT_CTRL is written with SOFT_RST = 1. -/
def execSoftRst (n : Fin 22) (w : Word) (s : State) : Ans :=
  onBar0 s .PORT_CTRL n (fun s => portCtrlWrite s n (setBit w 31 true))

/-- R39: PORT_FASTLINK_CTRL.FORGET. -/
def portForget (s : State) (n : Nat) : State :=
  if n < 12 then s.setReg .KEEP_COEF (~~~ coefCheck ((List.range 23).map (s.coef n))) n 23 else s

/-- FORGET (R39): the record becomes invalid; a link that is up stays up. -/
def execForget (n : Fin 22) (s : State) : Ans :=
  onBar0 s .PORT_FASTLINK_CTRL n (fun s => if classLacks .PORT_FASTLINK_CTRL n then s else portForget s n)

/-- R52: the correction values of the speed that came up, in 100 ps. -/
def phyCorr (n speed : Nat) : Nat :=
  match portClass n with
  | .f => 12000
  | .m => 35000
  | .h => 1200
  | _ => match speed with | 1 => 9500 | 2 => 13000 | 3 => 16000 | _ => 24000

/-- R37, R40, R41, R52, R184, R186: UP of a started port rises. -/
def linkRise (s : State) (n : Nat) (rep : LinkReport) : State :=
  let p := s.port n
  let speed := if p.anEn then rep.speed.toNat else if p.speed = 0 then defaultSpeed n else p.speed
  let leader := if p.anEn then rep.leader else p.role == 1
  if s.up n || !p.started || s.rbit .PORT_LINK_STATUS 7 n || speed == 0 || !speedOk n p.hMode speed then s
  else
    let cls := portClass n
    let bcf := cls == .b || cls == .c || cls == .f
    let role := if cls == .m || cls == .h then 2 else if leader then 1 else 0
    let late := p.train == .refresh && s.refreshOver n p.trainAt
    let s := if late then fastFallback s n else s
    let fast := (p.train == .refresh || p.train == .negotiate) && !late && s.coefMatch n speed leader
    let w : Nat := 1 + speed * 2 + role * 16 + (if fast then 64 else 0) +
      (if bcf then rep.sqi.toNat * 256 + (if rep.loc then 2048 else 0) + (if rep.rem then 4096 else 0) else 0)
    let s := s.setReg .PORT_LINK_STATUS (BitVec.ofNat 32 w) n
    let s := s.flag .PORT_LINK_EVENT .PORT_LINK_IRQ_EN 1 n
    let s := if p.prevSpeed ≠ 0 ∧ p.prevSpeed ≠ speed then s.flag .PORT_LINK_EVENT .PORT_LINK_IRQ_EN 3 n else s
    let s := s.emit 0x01 n speed
    let s := s.updPort n (fun p => { p with hold := .normal, train := .none, prevSpeed := speed, upSince := s.beat, stored := false })
    if s.rbit .PORT_TS_CFG 2 n then s
    else
      let c := BitVec.ofNat 32 (phyCorr n speed)
      (s.setReg .PORT_TS_RX_CORR c n).setReg .PORT_TS_TX_CORR c n

/-- LINK_UP (R41): the PHY reports a link. -/
def execLinkUp (n : Fin 22) (rep : LinkReport) (s : State) : Ans :=
  onDie s (fun s => if s.hasPort n then linkRise s n rep else s)

/-- LINK_DOWN (R183): UP falls. -/
def execLinkDown (n : Fin 22) (s : State) : Ans := onDie s (fun s => linkFall s n)

/-- FAST_FALLBACK (R37): a refresh training has not converged within FAST_TMO; the port trains from cold. With negotiation `x.neg` says what it
resolved and when it ended; the refresh runs where the record matches it. -/
def execFastFallback (x : FastEnd) (s : State) : Ans :=
  onDie s (fun s =>
    let n := x.n
    let neg := x.neg
    let p := s.port n
    let due := match p.train with
      | .refresh => s.refreshOver n p.trainAt
      | .negotiate => s.coefMatch n neg.speed.toNat neg.leader && decide (p.trainAt.toNat ≤ neg.ended.toNat) && s.refreshOver n neg.ended
      | _ => false
    if due then fastFallback s n else s)

/-- R36, R38: the record with the speed, role and taps of the link and the partner's precoder selection, check word last. Word 0 holds the
speed in [2:0], the role in [3] and the precoder selection in [15:8], words 1 to 22 the taps and word 23 the check word, a
CRC-32 of the other words (DESIGN CHOICE, log entry 79: the manual gives neither the layout nor the check). -/
def coefStore (s : State) (n : Nat) (taps : List Word) (prec : Byte) : State :=
  let w0 := BitVec.ofNat 32 (s.rfld .PORT_LINK_STATUS 1 3 n + s.rfld .PORT_LINK_STATUS 4 1 n * 8 + prec.toNat * 256)
  let ws := w0 :: (taps ++ List.replicate 22 0).take 22
  let s := (List.range 23).foldl (fun s k => s.setReg .KEEP_COEF (wd ws k) n k) s
  (s.setReg .KEEP_COEF (coefCheck ws) n 23).updPort n (fun p => { p with stored := true })

/-- COEFFICIENT_STORE (R38): a link up for 125,000 beats stores its taps, once per link-up. -/
def execCoefficientStore (n : Fin 22) (coef : CoefReport) (s : State) : Ans :=
  onDie s (fun s =>
    if n.val < 12 ∧ s.up n ∧ !(s.port n).stored ∧ s.rbit .PORT_FASTLINK_CFG 8 n ∧
      125000 ≤ (s.beat - (s.port n).upSince).toNat then coefStore s n coef.taps coef.precoder
    else s)

/-! ### The multidrop media (R31, R32) -/

/-- R32: does the M port take part in PLCA as a follower. -/
def State.plcaFollower (s : State) (n : Nat) : Bool :=
  portClass n == .m && s.rbit .PORT_PLCA_CFG 0 n && decide (s.rfld .PORT_PLCA_CFG 4 8 n ≠ 0)

/-- PORT_PLCA_STATUS.PST: the coordinator sends beacons while its port is up and not silenced (R43); a follower receives
them. -/
def State.pst (s : State) (n : Nat) : Bool :=
  s.up n && s.rbit .PORT_PLCA_CFG 0 n &&
    (if s.plcaFollower n then s.rbit .PORT_PLCA_STATUS 0 n else portClass n == .m && !s.twin.safe)

/-- PLCA_BEACON_TIMEOUT (R32): a follower without beacons clears PST. -/
def execPlcaBeaconTimeout (n : Fin 22) (s : State) : Ans :=
  onDie s (fun s => if s.plcaFollower n then s.setRbit .PORT_PLCA_STATUS 0 false n else s)

/-- PLCA_BEACONS_RETURN (R32): a follower of an up port receives beacons and sets PST. -/
def execPlcaBeaconsReturn (n : Fin 22) (s : State) : Ans :=
  onDie s (fun s => if s.plcaFollower n && s.up n then s.setRbit .PORT_PLCA_STATUS 0 true n else s)

/-- R31, R44: the frame being sent collides. Its next attempt begins after the gap of 12 bytes (3,000 counter steps at 10 Mbit/s) and the
back-off and deference that the medium asks for; the 16th colliding attempt discards it, and the gap follows. -/
def collide (s : State) (n k : Nat) (wait : BitVec 32) : State :=
  let gap := s.time.cnt + 3000
  if (s.port n).attempts + 1 < 16 then
    let at_ := gap + wait.zeroExtend 64
    s.updPort n (fun p => { p with attempts := p.attempts + 1, curAt := at_, busyTo := at_ + (p.busyTo - p.curAt) })
  else
    let s := s.bump (.port n .COLLISION_DROP)
    let s := endTx (s.updPort n (fun p => { p with attempts := 0, busyTo := gap })) n
    let x := s.fresh
    match x.2.copyOf k with
    | none => x.2
    | some c => loseCopy x.2 c { ctr := none, code := 0x600 + x.1.toNat % 256 }

/-- COLLISION (R31): an M port that transmits by CSMA/CD detects a collision; `x.wait` is its back-off and deference in counter steps. The
completion detail of a discarded tracked frame is a free value (log entry 1): the manual gives no drop cause for it. -/
def execCollision (x : Backoff) (s : State) : Ans :=
  onDie s (fun s =>
    if portClass x.n == .m && !s.pst x.n then
      match (s.port x.n).cur with
      | none => s
      | some k => collide s x.n k x.wait
    else s)

/-! ### Reception (R44 to R57, R167) -/

/-- R51: the counter value moved by a correction in 100 ps units, rounded to the nearest step of 3.2 ns. -/
def stampMove (t : Wide) (corr : Int) : Wide := BitVec.ofInt 64 (((t.toNat : Int) * 32 + corr + 16) / 32)

/-- R45, R49, R50: the first cause for which the MAC discards a frame. -/
def State.macDiscard (s : State) (n : Nat) (rx : RxFrame) : Option PortCtr :=
  if rx.smdErr then some .SMD_ERR
  else if rx.cut then some .RX_ABORT
  else if s.maxLen n < rx.bytes.length then some .RX_OVERSIZE
  else if rx.bytes.length < 64 then some .RUNT
  else if rx.fcsErr then some .FCS_ERR
  else if etherOf rx.bytes = 0x8808 then some .MAC_CTRL
  else none

/-- R167, R168: a frame enters the holding area of its port, or finds no block. -/
def enterHold (s : State) (n : Nat) (src : FrameSrc) (bytes : List Byte) (wire : Nat) (stamp : Option Wide) (tsReq : Bool)
    (track : Option Nat) (direct : Option Nat := none) : Bool × State :=
  let b := blocksOf bytes.length
  if !s.holdRoom n b then (false, s.bump (.port n .HOLD_FULL))
  else
    let h : Held := { id := s.nextFrame, port := n, src, bytes, wire, stamp, arrive := s.time.cnt, tsReq, blocks := b, key := none,
                      bank := s.graphEpoch, video := none, marks := [], dec := none, waits := 0, track, admitted := false, direct, denied := [], old := [] }
    (true, { s with held := s.held ++ [h], nextFrame := s.nextFrame + 1 })

/-- Has P23's part of the holding area room for a frame. -/
def State.svcRoom (s : State) (f : List Byte) : Bool := s.holdRoom 23 (blocksOf f.length)

/-- A frame that Shepherd originates enters P23. -/
def svcEnter (s : State) (tok : Nat) (f : List Byte) (direct : Option Nat := none) (tsReq : Bool := false) : State :=
  (enterHold s 23 (.shepherd tok) f (f.length + 4) none tsReq none direct).2

/-- R26: the frames of Shepherd's own that wait enter P23 in order while it has room. -/
def answersOut : Nat → State → State
  | 0, s => s
  | n + 1, s =>
    match s.hif.answers with
    | [] => s
    | x :: l =>
      if s.svcRoom x.bytes then answersOut n (svcEnter { s with hif := { s.hif with answers := l } } 0 x.bytes x.direct x.tsReq) else s

/-- Frames of Shepherd's own join those that wait, and enter P23 while it has room. -/
def shepSend (s : State) (l : List ShepTx) : State :=
  let q := s.hif.answers ++ l
  answersOut q.length { s with hif := { s.hif with answers := q } }

/-- The source address of Shepherd's frames. -/
def State.shepMac (s : State) : List Byte := beBytes ((s.reg .WIN_SRC_MAC_LO).toNat + 2 ^ 32 * s.rfld .WIN_SRC_MAC_HI 0 16) 6

/-- R485, R51: a link-local frame of Shepherd's for port `n` (log entry 74). -/
def State.llFrame (s : State) (n ety : Nat) (tsReq : Bool) (body : List Byte) : ShepTx :=
  { entry := 8, bytes := beBytes 0x0180C200000E 6 ++ s.shepMac ++ beBytes ety 2 ++ body, direct := some n, tsReq }

/-- R45, R255, R392, R509: a frame at a receiving MAC. -/
def macReceive (s : State) (n : Nat) (rx : RxFrame) : State :=
  match s.macDiscard n rx with
  | some c => s.bump (.port n c)
  | none =>
    let s := (s.bump (.port n .RX_FRAMES)).bump (.port n .RX_BYTES) rx.bytes.length
    if s.twin.safe then s
    else if s.clk.phase < 7 then s.bump (.port n .NOT_READY)
    else
      let stamp := if s.rbit .PORT_TS_CFG 0 n then
          some (stampMove rx.stamp (- (s.rfld .PORT_TS_RX_CORR 0 16 n : Int))) else none
      match macsecRx s n (rx.bytes.take (rx.bytes.length - 4)) rx.cipher with
      | (.discard, s) => s
      | (.pass bytes, s) => (enterHold s n .mac bytes rx.bytes.length stamp false none).2

/-- FRAME_RECEIVE (R45): a frame reaches the MAC of a started port; a frame cut off by a link fall arrives with the fall. -/
def execFrameReceive (n : Fin 22) (rx : RxFrame) (s : State) : Ans :=
  onDie s (fun s =>
    if (s.port n).started && (s.up n || rx.cut) then macReceive s n rx else s)

/-- LINK_HOLD_EXPIRY (R185): a port still HELD at d + LINK_HOLD is flushed and becomes DOWN. The boundary into that beat does the same
ahead of its step 5 (dueFlushes), so the command finds a hold to end where LINK_HOLD was lowered since (log entry 80). -/
def execLinkHoldExpiry (n : Fin 22) (s : State) : Ans := onDie s (fun s => if s.holdOver n then portFlush s n else s)

end Sys2Proof.Machine
end

