-- ==== Sys2Proof/Machine/Egress.lean ====
section
/-! DEFINITION. The output stages: head checks, gates, shapers, the choice of the next copy, its sending and its delivery to
the host (R173, R189 to R191, R201 to R213, R223, R224, R284, R360 to R362, R515, R552). -/

namespace Sys2Proof.Machine

/-! ### Head checks (R213, R215, R552) -/

/-- R213: is a copy stale if it starts now. -/
def State.staleNow (s : State) (c : Copy) : Bool :=
  s.rbit .TM_CTRL 0 && c.fresh != 0 &&
    (let r := s.rate c.port
     let l := max c.len 64 + s.growth c.port c.bytes + 8
     decide (c.fresh * 5000 * r < (s.time.cnt - c.enq).toNat * 16 * r + l * 40000))

/-- R219: is the copy a later one of a picture that is being dropped on its queue. After the report of a check snooper every queued
copy is (R222). -/
def State.picDropped (s : State) (c : Copy) : Bool :=
  match c.stream, c.pic with
  | some h, some k => (match s.pic (queueNo c.port c.tc) h with | some r => r.drops.any (fun d => d.1 == k && decide (d.2 ≤ c.seq)) | none => false)
  | _, _ => false

/-- R204: does a copy exceed the longest open interval of its gate. -/
def State.neverFits (s : State) (c : Copy) : Bool :=
  decide (c.port < 22) && (match (s.port c.port).gate.maxWin c.tc with | some w => decide (w < s.txTime c) | none => false)

/-- R552: the loss that the head checks find on a head copy. -/
def State.headCheck (s : State) (c : Copy) : Option Loss :=
  if s.picDropped c then some { ctr := some .PIC_HEAD_DROP, code := 0x621 }
  else if s.neverFits c then some { ctr := some .NEVER_FITS, code := 0x622, pic := some 34 }
  else if s.staleNow c then some { ctr := some .STALE, code := 0x620, pic := some 32 }
  else none

/-- R223: the STALE record of a dropped copy without PICTURE, the first of its queue in a beat. -/
def staleRecord (s : State) (c : Copy) : State :=
  let q := queueNo c.port c.tc
  let v := s.queue q
  if c.picture || v.recOff || !s.rbit .TM_CTRL 3 then s
  else
    let s := s.setQueue q { v with recOff := true }
    if s.lim.tm < s.rfld .TM_EVT_CFG 0 8 then { s.emit 0x41 c.port q with lim := { s.lim with tm := s.lim.tm + 1 } }
    else s.bump (.device .TM_EVT_SUPPRESSED)

/-- R552: the head of queue `q` is examined, and after a drop the next head at once. -/
def headChecks (q : Nat) : Nat → State → State
  | 0, s => s
  | fuel + 1, s =>
    match (s.queue q).list with
    | [] => s
    | k :: _ =>
      match s.copyOf k with
      | none => s
      | some c => match s.headCheck c with
        | none => s
        | some l =>
          let s := if l.code = 0x620 then staleRecord s c else s
          headChecks q fuel (loseCopy s c l)

/-- The head checks of one queue. -/
def checkHeads (s : State) (q : Nat) : State := headChecks q (s.queue q).list.length s

/-! ### RX rings as P22 sees them (R360, R362) -/

/-- May the device issue DMA (R352). -/
def State.dmaOk (s : State) : Bool := s.hif.bme && !s.hif.perst && s.clk.pcieRef

/-- R360: the RX ring (0 to 31) of a copy. -/
def State.rxRing (s : State) (c : Copy) : Nat :=
  (s.rfld .HIF_RX_MAP 0 5 c.tc + c.stream.getD 0 % 2 ^ (s.rfld .HIF_RX_MAP 5 2 c.tc)) % 32

/-- Buffers that an RX ring holds. -/
def State.rxBufs (s : State) (r : Nat) : Nat :=
  if s.rbit .HIF_CTRL 0 && s.rbit .HIF_RXR_CFG 4 r then ((s.ring (32 + r)).known + 65536 - (s.ring (32 + r)).head) % 65536 else 0

/-- R352, R362: must a copy for the host wait at its queue's head: for a buffer, where its ring has none and does not drop, or for DMA. -/
def State.rxWaits (s : State) (c : Copy) : Bool :=
  if s.rxBufs (s.rxRing c) = 0 then !s.rbit .HIF_RXR_CFG 14 (s.rxRing c) else !s.dmaOk

/-! ### Eligibility and choice (R202, R210, R211) -/

/-- The head copy of a queue. -/
def State.headOf (s : State) (q : Nat) : Option Copy :=
  match (s.queue q).list with
  | [] => none
  | k :: _ => s.copyOf k

/-- R202: a copy fits into the open interval that contains the present instant. -/
def State.fitsNow (s : State) (c : Copy) : Bool :=
  s.gateOpen c.port c.tc &&
    (match s.openLeft c.port c.tc (- ((- s.beatTime s.time.cnt) / 65536)) with
     | none => true
     | some e => decide ((s.txTime c : Int) ≤ e))

/-- R210: is queue `q` eligible; its credit has been brought up to date. -/
def State.eligible (s : State) (q : Nat) : Bool :=
  match s.headOf q with
  | none => false
  | some c =>
    (decide (22 ≤ c.port) || ((s.port c.port).hold == .normal && s.up c.port)) &&
    decide (200 ≤ (s.time.cnt - c.arrive).toNat) && s.fitsNow c &&
    (!s.rbit .TM_Q_SCHED 16 q || decide (0 ≤ (s.queue q).credit)) && (c.port != 22 || !s.rxWaits c)

/-- R211: CAP of a queue. -/
def State.drrCap (s : State) (q : Nat) : Nat :=
  max (s.rfld .TM_Q_SCHED 0 14 q + s.rfld .TM_PORT_SCHED 0 16 (q / 8)) (s.maxLen (q / 8) + 52)

/-- One visit of the deficit round robin to a queue: the choice, or the list and state it leaves. -/
def drrVisit (s : State) (n t : Nat) : Option Copy × State :=
  let q := queueNo n t
  if !s.eligible q then (none, s)
  else match s.headOf q with
    | none => (none, s)
    | some c =>
      let v := s.queue q
      let d := if v.newTurn then min (v.deficit + s.rfld .TM_Q_SCHED 0 14 q) (s.drrCap q) else v.deficit
      if s.wireLen c ≤ d then (some c, s.setQueue q { v with deficit := d - s.wireLen c, newTurn := false })
      else
        let s := s.setQueue q { v with deficit := d, newTurn := true }
        (none, s.updPort n (fun p => { p with drr := p.drr.filter (fun x => x != t) ++ [t] }))

/-- R211: once round the list. -/
def drrRound (s : State) (n : Nat) : List Nat → Option Copy × State
  | [] => (none, s)
  | t :: rest => match drrVisit s n t with
    | (some c, s) => (some c, s)
    | (none, s) => drrRound s n rest

/-- R211: rounds until a copy is chosen or no queue of the list is eligible. Each round raises the deficit of every eligible
queue by at least 64 up to CAP, so 1,024 rounds reach any copy that CAP admits. -/
def drrChoose (n : Nat) : Nat → State → Option Copy × State
  | 0, s => (none, s)
  | fuel + 1, s =>
    let l := (s.port n).drr
    if l.any (fun t => s.eligible (queueNo n t)) then
      match drrRound s n l with
      | (some c, s) => (some c, s)
      | (none, s) => drrChoose n fuel s
    else (none, s)

/-- R210: the next copy of a port. -/
def chooseCopy (s : State) (n : Nat) : Option Copy × State :=
  match [7, 6, 5, 4].find? (fun t => s.eligible (queueNo n t)) with
  | some t => (s.headOf (queueNo n t), s)
  | none => drrChoose n 1024 s

/-! ### Errors met while reading a copy (R188 to R191) -/

/-- R188: a correctable error is counted. -/
def countCe (s : State) (m : Fin 3) : State :=
  match m with
  | 0 => s.bump (.device .CELL_CE)
  | 1 => s.bump (.device .DESC_CE)
  | 2 => s

/-- R190: a cell that fails its pattern test is retired, in the first free entry of the retired-cell list if there is one. -/
def retireCell (s : State) (cell : Nat) : State :=
  match (List.range 32).find? (fun i => !s.rbit .KEEP_RETIRED 31 i) with
  | some i => (s.setReg .KEEP_RETIRED (BitVec.ofNat 32 (cell + 2 ^ 31)) i).emit 0x33 0 cell
  | none => { s with softRetired := s.softRetired ++ [cell] }.emit 0x33 0 (cell + 2 ^ 15)

/-- R189: a copy with an uncorrectable word, or a header that does not match, is dropped. -/
def eccDrop (s : State) (c : Copy) (cell : Nat) : State :=
  (loseCopy s c { ctr := some .ECC_DROP, code := 0x624, pic := some 36 }).emitIf (s.rbit .BUF_CTRL 1) 0x32 c.port cell

/-- R191: a list word lost in both copies empties its queue; the unreachable cells wait for the audit. -/
def listLost (s : State) (q : Nat) : State :=
  let cs := s.copies.filter (fun c => queueNo c.port c.tc == q && (c.phase == .linked || c.phase == .sending))
  let s := cs.foldl (fun s c =>
    let s := loseCopy s c { ctr := some .LIST_LOST, code := 0x626, pic := some 38 }
    { s with copies := s.copies ++ [{ c with phase := .lost, tap := [], track := none }] }) s
  let s := s.emit 0x34 (q / 8) q
  if s.audit = 0 then { s with audit := 128 } else s

/-! ### Starting a copy (R51, R210, R212, R224, R391, R515) -/

/-- R515: the delay bin. -/
def delayBin (d : Nat) : Nat := if d < 64 then 0 else min 15 (Nat.log2 (d / 64) + 1)

/-- R515: the depth bin. -/
def depthBin (u : Nat) : Nat := if u = 0 then 0 else min 15 (Nat.log2 u + 1)

/-- A read-clear maximum takes a larger value, saturating at 32 bits. -/
def maxReg (s : State) (r : Reg) (v q : Nat) : State :=
  let v := min v (2 ^ 32 - 1)
  if (s.reg r q).toNat < v then s.setReg r (BitVec.ofNat 32 v) q else s

/-- R224: the delay of a copy that starts. -/
def noteDelay (s : State) (q d : Nat) : State :=
  let s := (maxReg s .TM_Q_MAX_DELAY d q).maxCtr (.qmax q .MAX_DELAY) d
  if s.rbit .TEL_CTRL 0 then s.bump (.hist q (delayBin d)) else s

/-- R212: the fall of the credit at a start, in 1/256 byte times 2,500. -/
def creditFall (s : State) (q : Nat) (c : Copy) : State :=
  let v := s.queue q
  if s.rbit .TM_Q_SCHED 16 q then s.setQueue q { v with credit := v.credit - ((s.wireLen c * 256 * 2500 : Nat) : Int) } else s

/-- The copy leaves its list and goes on the wire. -/
def startOn (s : State) (c : Copy) (wire : List Byte) : State :=
  let q := queueNo c.port c.tc
  let r := s.rate c.port
  let len := s.wireLen c
  let s := noteDelay s q (s.time.cnt - c.enq).toNat
  let s := unlink (creditFall s q c) q c.id
  let s := s.setCopy { c with phase := .sending }
  s.updPort c.port (fun p => { p with
    cur := some c.id, curAt := s.time.cnt, curWire := wire, attempts := 0,
    busyTo := s.time.cnt + BitVec.ofNat 64 (wireSteps len r) })

/-- R391, R388: the chosen copy passes the SecY and starts, or is dropped there. The completion detail of a copy dropped for
want of a usable SA, a packet number or a core is a free value: the manual gives it no drop cause (log entry 1). -/
def startCopy (s : State) (c : Copy) (rep : CipherReport) : State :=
  match macsecTx s c.port c.bytes rep with
  | (.plain, s) => startOn s c c.bytes
  | (.sent w, s) => startOn s c w
  | (.mismatch, s) => loseCopy s c { ctr := some .CIPHER_MISMATCH, code := 0x628, pic := some 36 }
  | (.dropped, s) =>
    let x := s.fresh
    loseCopy x.2 c { ctr := none, code := 0x600 + x.1.toNat % 256 }

/-- R210: can the output stage of port `n` take a new copy: enabled, not silenced (R255, R445), at the end of the previous gap. -/
def State.macFree (s : State) (n : Nat) : Bool :=
  let p := s.port n
  p.cur.isNone && !ahead (p.busyTo.truncate 48) (s.time.cnt.truncate 48) && !s.twin.safe &&
    !s.bug.txSilent && (decide (22 ≤ n) || (p.started && s.up n && p.hold == .normal))

/-- R362: a copy that finds no buffer on a ring with DROP_EMPTY = 1. -/
def dropEmpty (s : State) (c : Copy) : State :=
  let x := (s.bump (.ring (32 + s.rxRing c) .LOST)).fresh
  loseCopy x.2 c { ctr := none, code := 0x600 + x.1.toNat % 256 }

/-- R210: the output stage of port `n` chooses and starts the next copy. -/
def transmitChoice (s : State) (n : Nat) (ecc : TxEcc) : State :=
  if !s.macFree n then s
  else
    let s := (List.range 8).foldl (fun s t => checkHeads (accrue s (queueNo n t)) (queueNo n t)) s
    match chooseCopy s n with
    | (none, s) => s
    | (some c, s) =>
      if n = 22 && s.rxBufs (s.rxRing c) == 0 then dropEmpty s c
      else match ecc with
        | .ok => startCopy s c {}
        | .ce m => startCopy (countCe s m) c {}
        | .cell cell _ bad =>
          let s := eccDrop s c cell.toNat
          if bad then retireCell s cell.toNat else s
        | .header cell => eccDrop s c cell.toNat
        | .list => listLost s (queueNo n c.tc)
        | .cipher rep => startCopy s c rep

/-- TRANSMIT_CHOICE (R210). -/
def execTransmitChoice (p : Fin 24) (ecc : TxEcc) (s : State) : Ans := onDie s (fun s => transmitChoice s p ecc)

/-- CREDIT_ZERO (R212): a shaped queue's credit, brought up to date, is no longer negative and its port chooses again. -/
def execCreditZero (q : Fin 192) (s : State) : Ans :=
  onDie s (fun s =>
    let s := accrue s q
    if s.rbit .TM_Q_SCHED 16 q ∧ 0 ≤ (s.queue q).credit then transmitChoice s (q / 8) .ok else s)

/-! ### The end of a copy (R44, R48, R173, R284) -/

/-- R48: a frame padded to 60 bytes, without FCS. -/
def padFrame (bytes : List Byte) : List Byte := bytes ++ List.replicate (60 - bytes.length) 0

/-- The 64 bit times of preamble and SFD at a rate in Mbit/s, in 100 ps. -/
def sfdTime (rate : Nat) : Nat := 640000 / rate

/-- R51: the transmit stamp of the copy on the wire: the first bit after the SFD lies 64 bit times after its start. -/
def State.txStamp (s : State) (n : Nat) : Wide :=
  stampMove (s.port n).curAt (((s.rfld .PORT_TS_TX_CORR 0 16 n + sfdTime (s.rate n) : Nat)) : Int)

/-- R359: a stamped copy of a tracked frame: the lowest-numbered port's stamp is kept. -/
def keepStamp (s : State) (track : Option Nat) (n : Nat) (t : Wide) : State :=
  match track with
  | none => s
  | some k => match SMap.find? s.tracks k with
    | none => s
    | some r =>
      let keep := match r.stamp with | none => true | some (m, _) => decide (n < m)
      if keep then { s with tracks := SMap.put s.tracks k { r with stamp := some (n, t) } } else s

/-- R284: is a copy one for the tunnel receiver. -/
def tunnelCopy (bytes : List Byte) : Bool :=
  let p := partsOf bytes
  decide (p.vlans.length ≤ 1) && beNat p.rest 0 2 == 0x22F0 && (byteAt p.rest 2 == 0x82 || byteAt p.rest 2 == 0x05)

/-- A copy wholly sent by a MAC: counted, stamped, put on the wire, or received again in a loopback. -/
def sentMac (s : State) (n : Nat) (c : Copy) : State :=
  let w := padFrame (s.port n).curWire
  let len := w.length + 4
  let q := queueNo n c.tc
  let s := ((s.bump (.port n .TX_FRAMES)).bump (.port n .TX_BYTES) len)
  let s := ((s.bump (.queue q .TX_FRAMES)).bump (.queue q .TX_BYTES) len)
  let s := if c.tsReq && s.rbit .PORT_TS_CFG 1 n then keepStamp s c.track n (s.txStamp n) else s
  let at_ := stampMove (s.port n).curAt (sfdTime (s.rate n) : Int)
  let s := doneCopy (endTx s n) c
  if (s.port n).loopback = 0 then s.put (.wireFrame n w true)
  else macReceive s n { bytes := w ++ leBytes (crc32 w).toNat 4, stamp := at_ }

/-- A copy wholly read by P23: to Shepherd; a tunnel container goes by TUNNEL_CONTAINER_RECEIVE. -/
def sentSvc (s : State) (c : Copy) : State :=
  if tunnelCopy c.bytes then s
  else
    let q := queueNo 23 c.tc
    let s := ((s.bump (.port 23 .TX_FRAMES)).bump (.port 23 .TX_BYTES) c.len)
    let s := ((s.bump (.queue q .TX_FRAMES)).bump (.queue q .TX_BYTES) c.len)
    (doneCopy (endTx s 23) c).put (.shepherd c.inPort c.bytes c.rxStamp)

/-- R189: where on the wire of port `n` the 32-byte word `w` of the copy begins: the 4-byte copy header fills the first bytes of word 0, and
behind the addresses a protected frame carries its SecTAG. -/
def State.wordAt (s : State) (n : Nat) (c : Copy) (w : Nat) : Nat :=
  let o := 32 * w - 4
  if o ≤ 12 then o else o + ((s.port n).curWire.length - 16 - c.bytes.length)

/-- R189: the copy that is being read ends before byte `at_` of its frame; P22 and P23 have no MAC. -/
def badEnd (s : State) (n at_ : Nat) : State := if n < 22 then cutTx s n at_ else endTx s n

/-- COPY_SENT (R173): the copy on the wire of port `p` has been read to its last cell, or meets an error there. P22's copies
end with RX_DELIVERY. -/
def execCopySent (p : Fin 24) (ecc : TxEcc) (s : State) : Ans :=
  onDie s (fun s =>
    match (s.port p).cur with
    | none => s
    | some k => match s.copyOf k with
      | none => endTx s p
      | some c =>
        let done := fun s => if p.val = 22 then s else if p.val = 23 then sentSvc s c else sentMac s p c
        match ecc with
        | .ok => done s
        | .ce m => done (countCe s m)
        | .cell cell w bad =>
          let s := eccDrop (badEnd s p (s.wordAt p c w)) c cell.toNat
          if bad then retireCell s cell.toNat else s
        | .header cell => eccDrop (badEnd s p 0) c cell.toNat
        | .list => listLost (badEnd s p (s.sentBytes p)) (queueNo p c.tc)
        | .cipher rep =>
          if rep.mismatch then
            loseCopy (badEnd s p (s.sentBytes p)) c { ctr := some .CIPHER_MISMATCH, code := 0x628, pic := some 36 }
          else done s)

/-! ### Delivery to the host (R360 to R362) -/

/-- A 64-bit address of two words. -/
def addr64 (lo hi : Word) : Nat := lo.toNat + 2 ^ 32 * hi.toNat

/-- The host address of slot `i` of a ring of 32-byte entries (R353). -/
def slotAddr (lo hi : Word) (sizeLog2 i : Nat) : Nat := addr64 (lo &&& 0xFFFFF000) hi + 32 * (i % 2 ^ sizeLog2)

/-- R361: the copy is written into the buffer and the descriptor completed, OWN last. -/
def rxWrite (s : State) (c : Copy) (r : Nat) (d : List Word) : State :=
  let g := s.ring (32 + r)
  let slot := slotAddr (s.reg .HIF_RXR_BASE_LO r) (s.reg .HIF_RXR_BASE_HI r) (s.rfld .HIF_RXR_CFG 0 4 r) g.head
  let bl := wfld d 2 0 14
  let data := c.bytes.take bl
  let w4 := c.len + (if bl < c.bytes.length then 2 ^ 14 else 0) + (if c.rxStamp.isSome then 2 ^ 15 else 0) + c.tc * 2 ^ 16
  let w5 := c.stream.getD 0 + (if c.stream.isSome then 2 ^ 12 else 0) + (if c.picture then 2 ^ 13 else 0) +
    (if c.eop then 2 ^ 14 else 0) + (if c.yellow then 2 ^ 15 else 0)
  let ts := (c.rxStamp.getD 0).toNat
  let s := s.puts [.hostWrite (addr64 (wd d 0) (wd d 1)) data,
    .hostWrite (slot + 16) (leBytes w4 4 ++ leBytes w5 4 ++ leBytes ts 8),
    .hostWrite (slot + 8) (leBytes ((wd d 2).toNat % 2 ^ 31) 4)]
  let s := s.setRing (32 + r) { g with head := (g.head + 1) % 65536 }
  let s := (s.bump (.ring (32 + r) .FRAMES)).bump (.ring (32 + r) .BYTES) c.len
  s.pend (s.rfld .HIF_RXR_CFG 5 6 r)

/-- R362: the copy finds no usable buffer: dropped, or back at the head of its queue. -/
def rxNoBuf (s : State) (c : Copy) (r : Nat) : State :=
  let s := endTx s 22
  if s.rbit .HIF_RXR_CFG 14 r then dropEmpty s c
  else
    let q := queueNo 22 c.tc
    let s := accrue s q
    let v := s.queue q
    let s := if v.list.isEmpty && decide (c.tc < 4) then s.updPort 22 (fun p => { p with drr := p.drr ++ [c.tc] }) else s
    (s.setQueue q { v with list := c.id :: v.list }).setCopy { c with phase := .linked }

/-- RX_DELIVERY (R361): the copy that P22 reads is written into the buffer of `desc`, as read from its RX ring; `none` stands
for a descriptor read that failed (R366). -/
def execRxDelivery (k : Nat) (desc : Option (List Word)) (s : State) : Ans :=
  onDie s (fun s =>
    if (s.port 22).cur != some k then s
    else match s.copyOf k with
      | none => endTx s 22
      | some c =>
        let r := s.rxRing c
        match desc with
        | none => rxNoBuf (s.flag .HIF_EVENT .HIF_IRQ_EN 4) c r
        | some d =>
          if s.rxBufs r = 0 || !bit (wd d 2) 31 then rxNoBuf s c r
          else
            let q := queueNo 22 c.tc
            let s := rxWrite s c r d
            let s := ((s.bump (.port 22 .TX_FRAMES)).bump (.port 22 .TX_BYTES) c.len)
            let s := ((s.bump (.queue q .TX_FRAMES)).bump (.queue q .TX_BYTES) c.len)
            doneCopy (endTx s 22) c)

/-! ### Gates (R206 to R208) -/

/-- R206: the gate cycle of port `n` starts again from entry 0 at beat `b`. -/
def gateStart (s : State) (n : Nat) (b : Beat) : State :=
  (accruePort s n).updPort n (fun p => { p with cycleAt := b, gateEnt := 0 })

/-- GATE_CHANGE (R207): the interval of the entry in operation has ended on beat time, and the next entry's states apply; the
last entry lasts to the end of the cycle (R206). -/
def execGateChange (n : Fin 22) (s : State) : Ans :=
  onDie s (fun s =>
    let p := s.port n
    if !p.gate.en then s
    else if p.gateEnt + 1 < p.segs.length then
      if (p.entEnd p.gateEnt : Int) * 65536 ≤ s.beatTime s.time.cnt then
        (accruePort s n).updPort n (fun p => { p with gateEnt := p.gateEnt + 1 })
      else s
    else if passed p.cycleEnd s.beat then gateStart s n p.cycleEnd
    else s)

/-! ### Sampling at a boundary (R224, R552) -/

/-- R224: the depth and head age of one queue are sampled. -/
def sampleQueue (s : State) (q : Nat) : State :=
  let u := s.qUsed q
  let age := match s.headOf q with | none => 0 | some c => (s.time.cnt - c.enq).toNat
  let s := s.setReg .TM_Q_HEAD_AGE (BitVec.ofNat 32 (min age (2 ^ 32 - 1))) q
  let s := (maxReg s .TM_Q_MAX_DEPTH u q).maxCtr (.qmax q .MAX_DEPTH) u
  if s.rbit .TEL_CTRL 0 then s.bump (.hist q (16 + depthBin u)) else s

/-- R213, R184, R224: head checks and sampling of every queue at a boundary. -/
def boundaryHeads (s : State) : State :=
  let qs := (List.range 192).filter (fun q => s.hasPort (q / 8))
  qs.foldl sampleQueue (qs.foldl checkHeads s)

end Sys2Proof.Machine
end

