-- ==== Sys2Proof/Machine/Slabs.lean ====
section
/-! DEFINITION. The exchange window: slab flags and their ownership (R370 to R372). -/

namespace Sys2Proof.Machine

/-- R371: OWNER of a flag byte. -/
def flagOwner (f : Byte) : Nat := f.toNat % 4

/-- R371: the flag with another OWNER and GEN echoed. -/
def flagWith (f : Byte) (owner : Nat) : Byte := BitVec.ofNat 8 (f.toNat / 4 * 4 + owner)

/-- R370: host address of slab `k`. -/
def State.slabAddr (s : State) (k : Nat) : Nat :=
  (s.reg .HIF_XW_BASE_LO).toNat + 2 ^ 32 * (s.reg .HIF_XW_BASE_HI).toNat + 4096 * k

/-- R370: host address of flag `k`. -/
def State.flagAddr (s : State) (k : Nat) : Nat :=
  (s.reg .HIF_XW_FLAG_LO).toNat + 2 ^ 32 * (s.reg .HIF_XW_FLAG_HI).toNat + k

/-- R370: is slab `k` in the window. -/
def State.slabIn (s : State) (k : Nat) : Bool := decide (k < s.rfld .HIF_XW_CFG 0 17)

/-- R372: may a consumer use slab `k` whose flag reads `f`. -/
def State.slabOk (s : State) (k : Nat) (f : Byte) : Bool := s.slabIn k && flagOwner f == 1

/-- R372: what a read of flags showed: slab and flag byte. -/
def flagsSeen (s : State) (l : List (Nat × Byte)) : State :=
  { s with hif := { s.hif with flags := l.foldl (fun m x => SMap.set 0 m x.1 x.2) s.hif.flags } }

/-- What reading slabs showed of their flags. -/
def slabsSeen (s : State) (l : List SlabRead) : State := flagsSeen s (l.map (fun x => (x.slab, x.flag)))

/-- R372: the flag of slab `k` as the device last read or wrote it. -/
def State.flagOf (s : State) (k : Nat) : Byte := SMap.get 0 s.hif.flags k

/-- R382: DEV_OWNED: slabs of the window whose flag is at 01. -/
def State.devOwned (s : State) : Nat := (s.hif.flags.filter (fun e => s.slabIn e.1 && flagOwner e.2 == 1)).length

/-- The flag of slab `k` is written in host memory. -/
def flagPut (s : State) (k : Nat) (f : Byte) : State := (flagsSeen s [(k, f)]).put (.hostWrite (s.flagAddr k) [f])

/-- A consumer keeps using slab `k`, whose GEN the device remembers. -/
def slabKeep (s : State) (k : Nat) (f : Byte) : State :=
  { s with hif := { s.hif with slabs := SMap.put s.hif.slabs k (f.toNat / 4 + 1) } }

/-- The consumer of slab `k` ends: its flag is written with `owner` (2 = device-done, 3 = fault) and GEN echoed. -/
def slabEnd (s : State) (k gen owner : Nat) : State :=
  flagPut { s with hif := { s.hif with slabs := SMap.erase s.hif.slabs k } } k (BitVec.ofNat 8 (gen * 4 + owner))

/-- Every slab of a consumed read is set to device-done or to fault. -/
def slabsEnd (s : State) (l : List SlabRead) (owner : Nat) : State :=
  l.foldl (fun s x => slabEnd s x.slab (x.flag.toNat / 4) owner) s

end Sys2Proof.Machine
end

