-- ==== Sys2Proof/Machine/Rings.lean ====
section
/-! DEFINITION. The rings in host memory: doorbells, descriptors and their completions, event records, interrupts, resets of the
host interface (R352 to R369, R372). -/

namespace Sys2Proof.Machine

/-! ### Ring registers (R353, R382) -/

/-- CFG of ring `r` (0–31 TX, 32–63 RX, 64–65 command, 66–69 event). -/
def State.ringCfg (s : State) (r : Nat) : Word :=
  if r < 32 then s.reg .HIF_TXR_CFG r else if r < 64 then s.reg .HIF_RXR_CFG (r - 32)
  else if r < 66 then s.reg .HIF_CMR_CFG (r - 64) else s.reg .HIF_EVR_CFG (r - 66)

/-- Host address of slot `i` of ring `r`. -/
def State.slotOf (s : State) (r i : Nat) : Nat :=
  let n := fld (s.ringCfg r) 0 4
  if r < 32 then slotAddr (s.reg .HIF_TXR_BASE_LO r) (s.reg .HIF_TXR_BASE_HI r) n i
  else if r < 64 then slotAddr (s.reg .HIF_RXR_BASE_LO (r - 32)) (s.reg .HIF_RXR_BASE_HI (r - 32)) n i
  else if r < 66 then slotAddr (s.reg .HIF_CMR_BASE_LO (r - 64)) (s.reg .HIF_CMR_BASE_HI (r - 64)) n i
  else slotAddr (s.reg .HIF_EVR_BASE_LO (r - 66)) (s.reg .HIF_EVR_BASE_HI (r - 66)) n i

/-- EN of a ring is cleared. -/
def ringOff (s : State) (r : Nat) : State :=
  if r < 32 then s.setRbit .HIF_TXR_CFG 4 false r else if r < 64 then s.setRbit .HIF_RXR_CFG 4 false (r - 32)
  else if r < 66 then s.setRbit .HIF_CMR_CFG 4 false (r - 64) else s.setRbit .HIF_EVR_CFG 4 false (r - 66)

/-- Is a ring served: the interface and the ring enabled. -/
def State.ringOn (s : State) (r : Nat) : Bool := s.rbit .HIF_CTRL 0 && bit (s.ringCfg r) 4

/-- Entries of a ring. -/
def State.ringSize (s : State) (r : Nat) : Nat := 2 ^ fld (s.ringCfg r) 0 4

/-- Index of the next descriptor to be fetched. -/
def Ring.next (g : Ring) : Nat := (g.head + g.fetched.length) % 65536

/-- May the device fetch the next descriptor of a ring: enabled, posted, DMA allowed. A stopped ring's are still read, to complete with
RING_RESET (R367). -/
def State.canFetch (s : State) (r : Nat) : Bool := s.dmaOk && s.ringOn r && ((s.ring r).next != (s.ring r).known)

/-- The descriptor `idx` of ring `r`, modified. -/
def updDesc (s : State) (r idx : Nat) (f : Desc → Desc) : State :=
  let g := s.ring r
  s.setRing r { g with fetched := g.fetched.map (fun d => if d.idx = idx then f d else d) }

/-- A descriptor joins those fetched of its ring. -/
def pushDesc (s : State) (r : Nat) (d : Desc) : State :=
  let g := s.ring r
  s.setRing r { g with fetched := g.fetched ++ [{ d with idx := g.next }] }

/-! ### Doorbells (R354 to R356) -/

/-- R355: ring `r` is stopped for a bad index. -/
def ringErr (s : State) (r : Nat) : State := (ringOff s r).flag .HIF_EVENT .HIF_IRQ_EN 2

/-- R355: the tail (or, of an event ring, the head) `f` of ring `r`. -/
def applyTail (s : State) (r f : Nat) : State :=
  let g := s.ring r
  if !s.ringOn r || g.stop then s
  else if r < 66 then
    let d := (f + 65536 - g.known) % 65536
    if d = 0 ∨ 2 ^ 15 ≤ d then s
    else if s.ringSize r < (f + 65536 - g.head) % 65536 then ringErr s r
    else s.setRing r { g with known := f % 65536 }
  else if (g.evTail + 65536 - g.head) % 65536 < (f + 65536 - g.head) % 65536 then ringErr s r
  else s.setRing r { g with head := f % 65536 }

/-- R355: the tails and heads of a doorbell block. -/
def applyBlock (s : State) (b : List Byte) : State :=
  (List.range 70).foldl (fun s r => applyTail s r (leNat b (2 * r) 2)) s

/-- R355, R352: a doorbell poll is issued, or skipped while Bus Master Enable is clear. -/
def issuePoll (s : State) : State :=
  if !s.rbit .HIF_CTRL 0 then s
  else if !s.dmaOk then s.bump (.device .DB_SKIPPED)
  else
    let s := (s.bump (.device .DB_POLLS)).put
      (.hostRead ((s.reg .HIF_DB_BASE_LO).toNat + 2 ^ 32 * (s.reg .HIF_DB_BASE_HI).toNat) 256)
    { s with hif := { s.hif with poll := true } }

/-- R22: a poll still outstanding at the next boundary is abandoned and counted. -/
def abandonPoll (s : State) : State :=
  if s.hif.poll then
    ({ s with hif := { s.hif with poll := false, pollAgain := false } }.bump (.device .DB_LATE)).flag .HIF_EVENT .HIF_IRQ_EN 0
  else s

/-- R356: a write to HIF_KICK. -/
def kick (s : State) (w : Word) : State :=
  let r := fld w 16 5
  let t := fld w 0 16
  let s := match fld w 21 2 with
    | 0 => applyTail s r t
    | 1 => applyTail s (32 + r) t
    | 2 => if r < 2 then applyTail s (64 + r) t else s
    | _ => if r < 4 then applyTail s (66 + r) t else s
  if bit w 31 then
    if s.hif.poll then { s with hif := { s.hif with pollAgain := true } } else issuePoll s
  else s

/-! ### Transmit (R357, R358) -/

/-- R358: is a TX descriptor refused with BAD_DESC. -/
def txBad (d : List Word) : Bool :=
  decide (wfld d 2 0 14 < 14) || decide (9212 < wfld d 2 0 14) || wfld d 2 16 15 != 0

/-- Up to `n` descriptors, as read in index order, are taken; one that the device does not own ends the read. On a ring that has stopped for
its reset they complete with RING_RESET, and one that the device does not own leaves none (R367). -/
def txTake (s : State) (r : Nat) : List (List Word) → State
  | [] => s
  | d :: t =>
    let g := s.ring r
    if !s.canFetch r then s
    else if !bit (wd d 2) 31 then (if g.stop then s.setRing r { g with known := g.next } else s)
    else
      let e : Desc := { idx := 0, words := d }
      let e := if g.stop then { e with state := 3, status := 9 } else if txBad d then { e with state := 3, status := 7 } else e
      txTake (pushDesc s r e) r t

/-- The descriptor of a ring whose data is to be read next. -/
def Ring.waiting (g : Ring) : Option Desc := g.fetched.find? (fun d => d.state == 0)

/-- Does a TX ring hold a descriptor to be read, with no read of it outstanding (R358). -/
def State.txUnread (s : State) (r : Nat) : Bool := s.canFetch r && (s.ring r).asked == 0 && (s.ring r).waiting.isNone

/-- R358: the TX ring that is served next of those that hold a descriptor whose frame is to be read: highest PRIO, round robin among
equals. -/
def State.txChoice (s : State) : Option Nat :=
  let rs := (List.range 32).filter (fun r => (s.ring r).waiting.isSome)
  let p := rs.foldl (fun m r => max m (fld (s.ringCfg r) 11 3)) 0
  ((List.range 32).map (fun k => (s.hif.rr + 1 + k) % 32)).find? (fun r => rs.contains r && fld (s.ringCfg r) 11 3 == p)

/-- A tracking record that is free. -/
def State.freeTrack (s : State) : Option Nat := (List.range 2048).find? (fun t => (SMap.find? s.tracks t).isNone)

/-- R358: may data of host frames be read: DMA allowed, forwarding started, no stop of a sleep made (R445). -/
def State.txReads (s : State) : Bool := s.dmaOk && s.clk.phase == 7 && !s.bug.txSilent

/-- R358: the data of descriptor `d` of TX ring `r` is asked for, with its holding-area blocks and tracking record `t` reserved. -/
def txAsk (s : State) (r : Nat) (d : Desc) (t : Nat) : State :=
  let rec1 : Track := { owner := .host r d.idx, left := 0, lost := 0, cause := none, safe := false, down := false, stamp := none }
  let s := { s with tracks := SMap.put s.tracks t rec1, hif := { s.hif with rr := r } }
  (updDesc s r d.idx (fun d => { d with state := 4, track := t })).put (.hostRead (addr64 (wd d.words 0) (wd d.words 1)) (wfld d.words 2 0 14))

/-- R358, R381: the data reads that can be issued, ring by ring in the order of service; in the safe state the descriptors complete with
FAILED_SWITCHOVER instead. -/
def txDataReads : Nat → State → State
  | 0, s => s
  | n + 1, s =>
    match s.txChoice with
    | none => s
    | some r => match (s.ring r).waiting with
      | none => s
      | some d =>
        if s.twin.safe then txDataReads n (updDesc s r d.idx (fun d => { d with state := 3, status := 2 }))
        else if !s.holdRoom 22 d.blocks then s
        else match s.freeTrack with
          | none => s
          | some t => txDataReads n (txAsk s r d t)

/-- R358: a descriptor read of TX ring `r`, up to 8 descriptors to the tail or to the ring's end. -/
def txDescRead (s : State) (r : Nat) : State :=
  if !s.txUnread r then s
  else
    let g := s.ring r
    let n := min 8 (min ((g.known + 65536 - g.next) % 65536) (s.ringSize r - g.next % s.ringSize r))
    (s.setRing r { g with asked := n }).put (.hostRead (s.slotOf r g.next) (32 * n))

/-- R358: the device goes on with its TX rings: data reads while there is room, then descriptor reads, those of the highest PRIO first. -/
def txWork (s : State) : State :=
  let n := (List.range 32).foldl (fun a r => a + (s.ring r).fetched.length) 0
  let s := if s.txReads || (s.dmaOk && s.twin.safe) then txDataReads n s else s
  if !s.dmaOk || s.bug.txSilent then s
  else ((List.range 8).reverse.flatMap (fun p => (List.range 32).filter (fun r => fld (s.ringCfg r) 11 3 == p))).foldl txDescRead s

/-- HIF_KICK (R356). -/
def execHifKick (w : Word) (s : State) : Ans := onBar0 s .HIF_KICK 0 (fun s => txWork (kick s w))

/-- DOORBELL_POLL_DATA (R355): the outstanding poll's data, or its error; the data of a poll that was abandoned (R22) are discarded. -/
def execDoorbellPollData (data : List Byte) (err : PollEnd) (s : State) : Ans :=
  onDie s (fun s =>
    if err == .late || !s.hif.poll then s
    else
      let again := s.hif.pollAgain
      let s := { s with hif := { s.hif with poll := false, pollAgain := false } }
      let s := if err == .error then s.flag .HIF_EVENT .HIF_IRQ_EN 1 else applyBlock s data
      txWork (if again then issuePoll s else s))

/-- TX_DESCRIPTOR_ARRIVAL (R358): the descriptors that the outstanding read of TX ring `r` asked for, as read from host memory. -/
def execTxDescriptorArrival (r : Fin 32) (descs : List (List Word)) (s : State) : Ans :=
  onDie s (fun s =>
    let g := s.ring r
    if g.asked = 0 then s else txWork (txTake (s.setRing r { g with asked := 0 }) r (descs.take g.asked)))

/-- R358: the frame of descriptor `d` of TX ring `r` enters P22, padded to 60 bytes, with the room and the record reserved for it. -/
def txEnter (s : State) (r : Nat) (d : Desc) (data : List Byte) : State :=
  let n := wfld d.words 2 0 14
  let bytes := slice data 0 (max n 60)
  let bytes := bytes.take n ++ List.replicate (60 - n) 0
  let s := updDesc s r d.idx (fun d => { d with state := 2 })
  let s := (s.bump (.ring r .FRAMES)).bump (.ring r .BYTES) n
  (enterHold s 22 (.host r d.idx) bytes (bytes.length + 4) none (bit (wd d.words 2) 14) (some d.track)).2

/-- The descriptor of a ring whose data read has been outstanding longest. -/
def Ring.reading (g : Ring) : Option Desc := g.fetched.find? (fun d => d.state == 4)

/-- A frame whose data read is outstanding ends without entering P22; its room and its record are free again. -/
def txGiveUp (s : State) (r : Nat) (d : Desc) (status : Nat) : State :=
  updDesc { s with tracks := SMap.erase s.tracks d.track } r d.idx (fun d => { d with state := 3, status })

/-- TX_DATA_ARRIVAL (R358): the data that the oldest outstanding data read of TX ring `r` asked for. In the safe state the frame is lost
(R381). -/
def execTxDataArrival (r : Fin 32) (data : List Byte) (s : State) : Ans :=
  onDie s (fun s =>
    match (s.ring r).reading with
    | none => s
    | some d => txWork (if s.twin.safe then txGiveUp s r d 2 else txEnter s r d data))

/-! ### Command rings (R363, R364) -/

/-- R363: is a command descriptor malformed: a reserved class or a reserved bit. -/
def cmdBad (d : List Word) : Bool := decide (5 ≤ wfld d 0 12 3) || wfld d 0 16 15 != 0

/-- R364: may descriptor `idx` of command ring `r` be fetched and started: it is the next, and no command of the ring runs. -/
def State.cmdOpen (s : State) (r idx : Nat) (d : List Word) : Bool :=
  s.canFetch (64 + r) && ((s.ring (64 + r)).next == idx) && bit (wd d 0) 31 &&
    !(s.ring (64 + r)).fetched.any (fun d => d.state == 1)

/-- A command of ring `r` is resolved: status, code, moves, returned index, data block. -/
def cmdDone (s : State) (r idx status code : Nat) (moves : Nat := 0) (index : Nat := 0) (data : List Word := []) : State :=
  updDesc s (64 + r) idx (fun d => { d with
    state := 3, status, detail := code, res6 := BitVec.ofNat 32 (code * 256 + moves * 65536), res7 := BitVec.ofNat 32 index, data })

/-- R363, R364: a command descriptor is fetched and its command runs, unless it may not start yet or is malformed. On a ring that has stopped
for its reset it completes with RING_RESET (R367). -/
def onCmd (s : State) (r : Fin 2) (idx : BitVec 16) (desc : List Word) (f : State → State) : State :=
  if !s.cmdOpen r idx.toNat desc then s.put .waits
  else
    let stop := (s.ring (64 + r.val)).stop
    let s := pushDesc s (64 + r.val) { idx := 0, words := desc, state := 1 }
    if stop then cmdDone s r idx.toNat 9 0 else if cmdBad desc then cmdDone s r idx.toNat 7 0 else f s

/-! ### Completions (R359, R364, R366) -/

/-- Words 4 to 7 of a completed TX descriptor (R357). -/
def txResult (d : Desc) : List Byte :=
  let t := d.stamp.getD (0, 0)
  leBytes (d.status + d.detail * 256 + t.1 * 2 ^ 16 + (if d.stamp.isSome then 2 ^ 21 else 0)) 4 ++ leBytes d.lost 4 ++
    leBytes t.2.toNat 8

/-- Words 6 and 7 of a completed command descriptor (R363). -/
def cmdResult (d : Desc) : List Byte :=
  leBytes (d.status + d.res6.toNat / 256 * 256) 4 ++ leBytes d.res7.toNat 4

/-- R365: the records of a batch with their results. -/
def batchOut (l : List (Nat × List Word)) : List Output := l.map (fun x => .hostWrite x.1 (wordsBytes x.2))

/-- R359: the completion of the descriptor at the head of ring `r`, OWN last. -/
def completeHead (s : State) (r : Nat) (d : Desc) : State :=
  let slot := s.slotOf r d.idx
  let s := if r < 32 then
      s.puts [.hostWrite (slot + 16) (txResult d), .hostWrite (slot + 8) (leBytes ((wd d.words 2).toNat % 2 ^ 31) 4)]
    else
      let a := addr64 (wd d.words 4) (wd d.words 5) / 64 * 64
      let s := d.slabs.foldl (fun s x => slabEnd s x.1 x.2 2) (s.puts (batchOut d.recs))
      let s := if d.data.isEmpty then s else s.put (.hostWrite a (wordsBytes d.data))
      s.puts [.hostWrite (slot + 24) (cmdResult d), .hostWrite slot (leBytes ((wd d.words 0).toNat % 2 ^ 31) 4)]
  let s := if bit (wd d.words (if r < 32 then 2 else 0)) 15 then s.pend (fld (s.ringCfg r) 5 6) else s
  let g := s.ring r
  s.setRing r { g with head := (g.head + 1) % 65536, fetched := g.fetched.drop 1 }

/-- R359: the completions of one ring, in index order, up to the first descriptor not yet resolved. -/
def completeRing (r : Nat) : Nat → State → State
  | 0, s => s
  | fuel + 1, s =>
    match (s.ring r).fetched with
    | [] => s
    | d :: _ => if d.state = 3 then completeRing r fuel (completeHead s r d) else s

/-- Step 8 of R20: the completions of every TX and command ring. -/
def completions (s : State) : State :=
  if !s.dmaOk then s
  else (List.range 32 ++ [64, 65]).foldl (fun s r => completeRing r (s.ring r).fetched.length s) s

/-- R366: a read for ring `r` failed: the descriptor that needed it ends with DMA_ERR; one not yet read has unknown words. Of a TX ring with
a data read and a descriptor read outstanding, the data read failed. -/
def dmaErr (s : State) (r : Nat) : State :=
  let s := s.flag .HIF_EVENT .HIF_IRQ_EN 4
  let g := s.ring r
  let unread := fun (s : State) => let x := s.fresh; pushDesc x.2 r { idx := 0, words := List.replicate 8 x.1, state := 3, status := 8 }
  if r < 32 then
    match g.reading with
    | some d => txGiveUp s r d 8
    | none => if g.asked = 0 then s else unread (s.setRing r { g with asked := 0 })
  else if r = 64 ∨ r = 65 then
    match g.fetched.find? (fun d => d.state == 1) with
    | some d => updDesc s r d.idx (fun d => { d with state := 3, status := 8 })
    | none => if s.canFetch r then unread s else s
  else s

/-- DMA_ERR (R366): a read of host memory for ring `r` ended with an error or went unanswered for 10 ms. -/
def execDmaErr (r : Fin 70) (s : State) : Ans := onDie s (fun s => if s.ringOn r then txWork (dmaErr s r) else s)

/-! ### Ring reset (R367) -/

/-- RING_RESET (R367): CMD.RESET of a ring. -/
def ringReset (s : State) (r : Nat) : State := s.setRing r { s.ring r with reset := true }

/-- The CMD register of ring `r`, with its index. -/
def ringCmdReg (r : Nat) : Reg × Nat :=
  if r < 32 then (.HIF_TXR_CMD, r) else if r < 64 then (.HIF_RXR_CMD, r - 32) else if r < 66 then (.HIF_CMR_CMD, r - 64)
  else (.HIF_EVR_CMD, r - 66)

/-- RING_RESET (R367). -/
def execRingReset (r : Fin 70) (s : State) : Ans := onBar0 s (ringCmdReg r).1 (ringCmdReg r).2 (fun s => ringReset s r)

/-- R367: has a ring descriptors that were posted but not fetched, which complete with RING_RESET once they are read. -/
def Ring.unfetched (g : Ring) (r : Nat) : Bool := (decide (r < 32) || r == 64 || r == 65) && (g.next != g.known)

/-- R367: a stopped ring with nothing left to complete takes HEAD = KNOWN = 0 and EN = 0. -/
def ringEnd (s : State) (r : Nat) : State :=
  let g := s.ring r
  if g.stop && g.fetched.isEmpty && !g.unfetched r then ringOff (s.setRing r {}) r else s

/-- R367: at a boundary a ring with CMD.RESET written stops. RX and event rings have nothing to complete. -/
def ringStop (s : State) (r : Nat) : State :=
  let g := s.ring r
  if !g.reset then s else ringEnd (s.setRing r { g with reset := false, stop := true }) r

/-! ### Event rings and interrupts (R368, R369) -/

/-- An event record as its 32 bytes (R516). -/
def EvRec.bytes (e : EvRec) : List Byte :=
  leBytes (e.code + e.src % 256 * 256 + e.seq * 65536) 4 ++ leBytes e.beat 4 ++ leBytes e.detail 4 ++ wordsBytes e.args

/-- R368: the event ring (66 to 69) of a record, by its group. -/
def State.evRing (s : State) (e : EvRec) : Nat := 66 + s.rfld .HIF_EVT_ROUTE (2 * (e.code / 16)) 2

/-- Room in an event ring. -/
def State.evRoom (s : State) (r : Nat) : Bool :=
  s.dmaOk && s.ringOn r && decide (((s.ring r).evTail + 65536 - (s.ring r).head) % 65536 < s.ringSize r)

/-- One record is written to its ring, or waits in the 512-record buffer, or is lost (R368). -/
def eventOut (s : State) (e : EvRec) : State :=
  let r := s.evRing e
  let waits := s.hif.evWait.any (fun x => s.evRing x == r)
  if s.evRoom r && !waits then
    let g := s.ring r
    let s := s.put (.hostWrite (s.slotOf r g.evTail) e.bytes)
    (s.setRing r { g with evTail := (g.evTail + 1) % 65536, written := g.written + 1 }).pend (fld (s.ringCfg r) 5 6)
  else if s.hif.evWait.length < 512 then { s with hif := { s.hif with evWait := s.hif.evWait ++ [e] } }
  else (s.bump (.ring r .LOST)).flag .HIF_EVENT .HIF_IRQ_EN 6

/-- R368: the write-back word of an event ring that took records. -/
def writeBack (s : State) (before : Nat → Nat) (e : Nat) : State :=
  let g := s.ring (66 + e)
  if g.written = before e then s
  else s.put (.hostWrite ((s.reg .HIF_EVR_WB_LO e).toNat + 2 ^ 32 * (s.reg .HIF_EVR_WB_HI e).toNat) (leBytes g.written 4))

/-- Step 8 of R20: the records of the previous beat, those that waited first. -/
def writeEvents (s : State) : State :=
  let l := s.hif.evWait ++ s.hif.evNew
  let before := fun e => (s.ring (66 + e)).written
  let s' := l.foldl eventOut { s with hif := { s.hif with evWait := [], evNew := [] } }
  (List.range 4).foldl (fun s e => writeBack s before e) s'

/-- R369: is a vector masked: its mask bit in the MSI-X table. -/
def State.vecMasked (s : State) (v : Nat) : Bool := s.rbit .MSIX_CTRL 0 v

/-- R369: moderation of one vector. -/
def moderate (s : State) (v : Nat) : State :=
  let x := SMap.get ({} : Vec) s.hif.vec v
  let m := s.reg .HIF_VEC_MOD v
  if x.pending = 0 then s
  else if fld m 16 8 ≤ (s.beat - x.last).toNat ∧
      (fld m 0 8 ≤ x.pending ∨ fld m 8 8 ≤ (s.beat - x.first).toNat) then
    let s := { s with hif := { s.hif with vec := SMap.set {} s.hif.vec v { pending := 0, last := s.beat, first := x.first } } }
    if s.vecMasked v then { s with hif := { s.hif with pba := maskSet s.hif.pba v } } else s.put (.msix v)
  else s

/-- Step 8 of R20: the moderated interrupts, after the records they cover. -/
def interrupts (s : State) : State := if s.dmaOk then (List.range 64).foldl moderate s else s

/-! ### Reclaim (R372) -/

/-- R372: a write to HIF_XW_RECLAIM. -/
def reclaimReq (s : State) (w : Word) : State :=
  { s with hif := { s.hif with reclaim := s.hif.reclaim ++ [(fld w 0 16, fld w 16 16 + 1)] } }

/-- HIF_XW_RECLAIM (R372). -/
def execHifXwReclaim (w : Word) (s : State) : Ans := onBar0 s .HIF_XW_RECLAIM 0 (fun s => reclaimReq s w)

/-- R372: a batch stops using reclaimed slabs: it ends before the first record that lies in one. -/
def dropBatch (s : State) (r : Nat) (p : Nat → Bool) (d : Desc) : Desc :=
  if d.slabs.any (fun x => p x.1) then
    let recs := d.recs.takeWhile (fun x => !p ((x.1 - s.slabAddr 0) / 4096))
    let more := s.twin.cmds.any (fun c => match c.src with | .batch r' i _ => 64 + r'.val == r && i.toNat == d.idx | _ => false)
    let state := if d.state = 1 ∧ recs.length ≤ d.res7.toNat / 65536 then (if more then 2 else 3) else d.state
    { d with recs, state, slabs := d.slabs.filter (fun x => !p x.1) }
  else d

/-- Consumers stop using the slabs of a set: a batch goes no further, and a load has lost its image. -/
def dropSlabs (s : State) (p : Nat → Bool) : State :=
  let s := if s.hif.slabs.any (fun e => p e.1) && (s.loader.state == .fetch) then
      { s with loader := { s.loader with slabBad := true } } else s
  let s := [64, 65].foldl (fun s r => s.setRing r { s.ring r with fetched := (s.ring r).fetched.map (dropBatch s r p) }) s
  { s with hif := { s.hif with slabs := s.hif.slabs.filter (fun e => !p e.1) } }

/-- R372: is slab `k` in a range that the host takes back. -/
def State.reclaims (s : State) (k : Nat) : Bool := s.hif.reclaim.any (fun x => decide (x.1 ≤ k ∧ k < x.1 + x.2))

/-- R372: at a boundary the reclaimed slabs are dropped by their consumers, and each flag of theirs still at 01 is written 11, its GEN
echoed; without DMA (R352) the request stays. -/
def reclaimAll (s : State) : State :=
  let mine := s.hif.flags.filter (fun e => s.reclaims e.1 && s.slabIn e.1 && flagOwner e.2 == 1)
  let s := dropSlabs s s.reclaims
  if !s.dmaOk then s
  else
    let s := { s with hif := { s.hif with reclaim := [] } }
    mine.foldl (fun s e => flagPut s e.1 (flagWith e.2 3)) s

/-! ### Resets of the host interface (R352, R504) -/

/-- R352: the HIF and WIN blocks return to their reset values; fetched frames go on without a completion, requests and slabs are
abandoned. -/
def hifReset (s : State) : State :=
  let keep := fun a => !(decide (0x30000 ≤ a) && decide (a < 0x50000))
  let drop := fun o => match o with | FrameSrc.host r _ => FrameSrc.host r 65536 | o => o
  let s := dropSlabs s (fun _ => true)
  let cmds := s.twin.cmds.map (fun c => match c.src with
    | .reg _ => c
    | .ring _ _ _ _ | .batch _ _ _ => { c with gone := true })
  let reading := (List.range 32).flatMap (fun r => ((s.ring r).fetched.filter (fun d => d.state == 4)).map (·.track))
  { s with
    regs := SMap.keep keep s.regs
    prep := SMap.keep keep s.prep
    ret := { s.ret with tap := SMap.mapv {} (fun t => { t with flagsDue := false }) s.ret.tap }
    tracks := (s.tracks.filter (fun e => !reading.contains e.1)).map (fun e => (e.1, { e.2 with owner := drop e.2.owner }))
    held := s.held.map (fun h => { h with src := drop h.src })
    copies := s.copies.map (fun c => { c with src := drop c.src })
    twin := { s.twin with cmds }
    upd := { s.upd with cfg := s.upd.cfg.map (fun c => { c with src := none }) }
    cry := { s.cry with upd := s.cry.upd.map (fun u => { u with owner := (2, 0) }) }
    hif := { perst := s.hif.perst, evSeq := s.hif.evSeq } }

/-- FLR (R352). The function's configuration space is reset with it, so Bus Master Enable is clear. -/
def execFlr (s : State) : Ans := onDie s (fun s => if s.hif.perst then s else (hifReset s).flag .HIF_EVENT .HIF_IRQ_EN 5)

/-- R495, R496: the PCIE domain runs while its reference is present and PERST_N is high. -/
def pcieClock (s : State) : State := s.setRbit .CLK_DOMAIN_STATUS 10 (s.clk.pcieRef && !s.hif.perst)

/-- PERST_N (R352): PERST_N is asserted. -/
def execPerstN (s : State) : Ans :=
  onDie s (fun s => let s := hifReset s; pcieClock { s with hif := { s.hif with perst := true } })

/-- PERST_N_RELEASE (R504). -/
def execPerstNRelease (s : State) : Ans := onDie s (fun s => pcieClock { s with hif := { s.hif with perst := false } })

/-- BUS_MASTER_ENABLE_CLEAR (R352): no further DMA; every ring keeps its state. -/
def execBusMasterEnableClear (s : State) : Ans := onDie s (fun s => { s with hif := { s.hif with bme := false } })

/-- BUS_MASTER_ENABLE_SET (R352). -/
def execBusMasterEnableSet (s : State) : Ans :=
  onDie s (fun s => if s.hif.perst then s else txWork { s with hif := { s.hif with bme := true } })

end Sys2Proof.Machine
end

