-- ==== Sys2Proof/Machine/Act.lean ====
section
/-! DEFINITION. The end of an ACTIVATE and what the twin planes and the safe state do to one in progress (R471 to R474). -/

namespace Sys2Proof.Machine

/-- R471, R519: an ACTIVATE ends with a code of R493. -/
def actEnd (s : State) (code : Nat) : State :=
  let s := { s with upd := { s.upd with act := 0, copyBlock := 0 } }
  let s := s.setRfld .UPD_ACT_STATUS 16 8 code
  if code = 0 then
    (s.flag .UPD_EVENT .UPD_IRQ_EN 0).emitIf (s.rbit .UPD_CTRL 0) 0xD0 0 0 [s.reg .UPD_FW_VERSION, s.reg .UPD_FW_SVN]
  else (s.flag .UPD_EVENT .UPD_IRQ_EN 1).emitIf (s.rbit .UPD_CTRL 0) 0xD1 0 code

/-- R473 PLANE_FAIL: BOOT_SLOT is set to PRIOR, but for a trial (R474). -/
def actPlaneFail (s : State) : State := actEnd (if s.upd.trial then s else s.setRbit .KEEP_BOOT 0 true) 11

/-- Is an ACTIVATE between the reload of the standby and the switchover (steps 4 to 6). -/
def State.actSwitching (s : State) : Bool := decide (4 ≤ s.upd.act ∧ s.upd.act ≤ 6)

/-- Step 6 of R471 is over: the new microcode is ACTIVE and the former active plane reloads (step 7), or, where that plane has
FAILED, Shepherd restarts (step 8). -/
def actSwitched (s : State) (oldFailed : Bool) : State := { s with upd := { s.upd with act := if oldFailed then 8 else 7 } }

/-- The safe state ends steps 4 to 6, whose standby is no longer eligible; step 7 is taken as over. -/
def actSafe (s : State) : State :=
  if s.actSwitching then actPlaneFail s
  else if s.upd.act = 7 then { s with upd := { s.upd with act := 8 } } else s

end Sys2Proof.Machine
end

