-- ==== Sys2Proof/Machine/Keep.lean ====
section
/-! DEFINITION. The keep domain's fault log and the monotonic counters with their mirror (R464, R465, R491). -/

namespace Sys2Proof.Machine

/-- R489: the keep map shows the wake registers a second time. -/
def keepAlias (a : Nat) : Nat := if 0x21000 ≤ a ∧ a < 0x21180 then a - 0xF00 else a

/-! ### The fault log (R491) -/

/-- R491: an entry of the fault log is written at the head of its ring. The manual states no DETAIL and no argument for any code:
they are free values (log entry 1). -/
def faultLog (s : State) (code : Nat) : State :=
  let x := s.fresh
  let y := x.2.fresh
  let detail := x.1.toNat
  let arg := y.1
  let s := y.2
  let j := s.rfld .KEEP_FAULT_HEAD 0 5
  let w0 := code + detail % 256 * 256 + (s.reg .KEEP_CTR 31).toNat % 65536 * 65536
  let ms := BitVec.ofNat 32 (((s.domain 0).ns s.time.cnt).toNat / 1000000)
  let s := s.setReg .KEEP_FAULT (BitVec.ofNat 32 w0) j 0
  let s := s.setReg .KEEP_FAULT (BitVec.ofNat 32 s.beat.toNat) j 1
  let s := s.setReg .KEEP_FAULT ms j 2
  let s := s.setReg .KEEP_FAULT arg j 3
  (s.setRfld .KEEP_FAULT_HEAD 0 5 (j + 1)).satInc .KEEP_FAULT_HEAD 8 8

/-! ### The counter mirror (R464, R465) -/

/-- R465: words 0 to 2 of a record and their CRC. -/
def mirrorRec (index : Nat) (copy : Bool) (value : Word) (rseq : Nat) : List Word :=
  let ws := [BitVec.ofNat 32 (index + if copy then 64 else 0), value, BitVec.ofNat 32 rseq]
  ws ++ [crc32 (wordsBytes ws)]

/-- R465: is a record valid: its CRC matches and its zero fields are zero. -/
def mirrorOk (r : List Word) : Bool :=
  decide (r.length = 4) && decide (fld (wd r 0) 7 25 = 0) && decide (fld (wd r 0) 0 6 ≤ 33) &&
    (!bit (wd r 0) 6 || fld (wd r 0) 0 6 == 33) && wd r 3 == crc32 (wordsBytes (r.take 3))

/-- The valid records of both halves. -/
def Update.records (u : Update) : List (List Word) := (u.mirror0 ++ u.mirror1).filter mirrorOk

/-- The record of an item with the highest RSEQ. -/
def Update.latest (u : Update) (index : Nat) : Option (List Word) :=
  (u.records.filter (fun r => fld (wd r 0) 0 6 == index)).foldl (fun (b : Option (List Word)) r =>
    match b with
    | none => some r
    | some x => if (wd x 2).toNat < (wd r 2).toNat then some r else some x) none

/-- The highest valid RSEQ. -/
def Update.topSeq (u : Update) : Nat := u.records.foldl (fun m r => max m (wd r 2).toNat) 0

/-- R465: the mirror value of an item: 0 when it has no valid record. -/
def Update.value (u : Update) (index : Nat) : Word :=
  match u.latest index with | some r => wd r 1 | none => 0

/-- The half in use replaced. -/
def Update.setHalf (u : Update) (l : List (List Word)) : Update := if u.half then { u with mirror1 := l } else { u with mirror0 := l }

/-- R465: a full half is left: the other half is erased and takes one record of each item that has one. -/
def Update.turn (u : Update) : Update :=
  let cur := (List.range 34).filterMap (fun i => u.latest i)
  ({ u with half := !u.half }).setHalf cur

/-- R465: a change appends one record to the half in use. -/
def mirrorAppend (s : State) (index : Nat) (copy : Bool) (value : Word) : State :=
  let u := s.upd
  let r := mirrorRec index copy value (u.topSeq + 1)
  let u := if (if u.half then u.mirror1 else u.mirror0).length < 4096 then u else u.turn
  { s with upd := u.setHalf ((if u.half then u.mirror1 else u.mirror0) ++ [r]) }

/-- R464: counter `n` goes up by 1, mirror first; it stops at its largest value. -/
def ctrInc (s : State) (n : Nat) : State :=
  let v := s.reg .KEEP_CTR n
  if v = 0xFFFFFFFF then s else (mirrorAppend s n false (v + 1)).setReg .KEEP_CTR (v + 1) n

/-- R464: a counter takes a value not below its present one, mirror first. -/
def ctrRaise (s : State) (n : Nat) (v : Word) : State :=
  if s.reg .KEEP_CTR n < v then (mirrorAppend s n false v).setReg .KEEP_CTR v n else s

/-- R464: at a start every counter and the epoch ceiling take the larger of the kept and the mirror value. -/
def ctrRestore (s : State) : State :=
  let s := (List.range 32).foldl (fun s n =>
    if s.reg .KEEP_CTR n < s.upd.value n then s.setReg .KEEP_CTR (s.upd.value n) n else s) s
  if s.reg .KEEP_CFG_EPOCH_HI < s.upd.value 32 then s.setReg .KEEP_CFG_EPOCH_HI (s.upd.value 32) else s

end Sys2Proof.Machine
end

