-- ==== Sys2Proof/Machine/Retriever.lean ====
section
/-! DEFINITION. The Retriever: packing, sectors, triggers and freezing (R409 to R421). -/

namespace Sys2Proof.Machine

/-- Domain 0 time now, in ns. -/
def State.now0 (s : State) : Wide := (s.domain 0).ns s.time.cnt

/-! ### Sectors (R412, R413) -/

/-- R412: a record header. -/
def recHeader (stream : Nat) (picture eop first last : Bool) (port tc type frag len : Nat) (t : Wide) : List Byte :=
  let b := fun (x : Bool) (n : Nat) => if x then 2 ^ n else 0
  leBytes (stream % 4096 + b picture 12 + b eop 13 + b first 14 + b last 15 + port * 2 ^ 16 + tc * 2 ^ 21 + type * 2 ^ 24) 4 ++
    leBytes (frag + len * 2 ^ 16) 4 ++ leBytes t.toNat 8

/-- Bytes of a sector after its header. -/
def sectorRoom : Nat := 4064

/-- The open sector of a tap, opened now if there is none. -/
def Tap.openOr (tp : Tap) (b : Beat) (t : Wide) (cont : Bool) : Sector :=
  tp.open_.getD { body := [], first := t, records := 0, opened := b, cont }

/-- Closes the open sector: it waits to be written. -/
def Tap.close (tp : Tap) (last : Bool) : Tap :=
  match tp.open_ with
  | none => if last then { tp with full := tp.full.dropLast ++ (match tp.full.getLast? with
      | some x => [{ x with last := true }] | none => []) } else tp
  | some x => { tp with open_ := none, full := tp.full ++ [{ x with last }] }

/-- R412: a record header with its data goes into the open sector, which closes when 16 bytes or fewer remain. -/
def Tap.place (tp : Tap) (b : Beat) (t : Wide) (cont trig : Bool) (bytes : List Byte) : Tap :=
  let x := tp.openOr b t cont
  let pad := List.replicate ((16 - bytes.length % 16) % 16) 0
  let x := { x with body := x.body ++ bytes ++ pad, records := x.records + 1, trig := x.trig || trig }
  let tp := { tp with open_ := some x }
  if sectorRoom ≤ x.body.length + 16 then tp.close false else tp

/-- R412: a DATA record in as many fragments as it needs. -/
def Tap.placeData (b : Beat) (c : Copy) (t : Wide) : Nat → Bool → List Byte → Tap → Tap
  | 0, _, _, tp => tp
  | fuel + 1, first, data, tp =>
    let used := match tp.open_ with | some x => x.body.length | none => 0
    let cap := sectorRoom - used - 16
    let frag := data.take cap
    let last := decide (data.length ≤ cap)
    let h := recHeader (c.stream.getD 0) c.picture c.eop first last c.port c.tc 0 frag.length c.len t
    let tp := tp.place b t (!first) false (h ++ frag)
    if last then tp else Tap.placeData b c t fuel false (data.drop cap) tp

/-- R410, R411: the items at the head of a tap's queue up to copy `k` are recorded. -/
def Tap.readTo (s : State) (k : Nat) : List TapItem → Tap → List TapItem × Tap
  | [], tp => ([], tp)
  | .gap h n pi eo po tc a :: rest, tp =>
    Tap.readTo s k rest (tp.place s.beat ((s.domain 0).ns a) false false
      (recHeader h pi eo true true po tc 1 n 0 ((s.domain 0).ns a)))
  | .copy k' :: rest, tp =>
    if k' = k then
      match s.copyOf k with
      | none => (rest, tp)
      | some c => (rest, tp.placeData s.beat c ((s.domain 0).ns c.enq) 4 true c.bytes)
    else (.copy k' :: rest, tp)

/-- Is copy `k` the next copy in a tap's queue. -/
def tapNext (k : Nat) : List TapItem → Bool
  | [] => false
  | .gap _ _ _ _ _ _ _ :: rest => tapNext k rest
  | .copy k' :: _ => k' == k

/-- A copy has been read by tap `t`; one already sent is freed with its last reader (R173). -/
def tapDone (s : State) (c : Copy) (t : Nat) : State :=
  let l := c.tap.filter (· != t)
  if l.isEmpty && c.phase == .tapOnly then s.dropCopy c.id else s.setCopy { c with tap := l }

/-- TAP_READ (R410): tap `t` reads its next copy and packs its record. -/
def execTapRead (t : Fin 2) (k : Nat) (s : State) : Ans :=
  onDie s (fun s =>
    let tp := s.rtap t
    let on := (s.ret.mode == .recording || s.ret.mode == .post) && !tp.frozen && s.rbit .REC_TAP_CFG 0 t
    match s.copyOf k with
    | none => s
    | some c =>
      if on && tapNext k tp.queue && c.tap.contains t.val then
        let x := Tap.readTo s k tp.queue tp
        tapDone ((s.setTap t { x.2 with queue := x.1 }).bump (.tap t .COPIES)) c t
      else s)

/-- SECTOR_FLUSH (R412): a sector open for FLUSH beats is closed. -/
def execSectorFlush (t : Fin 2) (s : State) : Ans :=
  onDie s (fun s =>
    let tp := s.rtap t
    match tp.open_ with
    | none => s
    | some x =>
      if max (s.rfld .REC_TAP_CFG 9 7 t) 1 ≤ (s.beat - x.opened).toNat then s.setTap t (tp.close false) else s)

/-! ### Freezing (R415, R419) -/

/-- COUNT of the ring in use, and the slab of a serial. -/
def Tap.count (tp : Tap) : Nat := max (fld tp.ring 16 16) 1
/-- R415: the slab of a serial. -/
def Tap.slabOf (tp : Tap) (n : Nat) : Nat := fld tp.ring 0 16 + n % tp.count

/-- The slabs of a rolling ring that hold the sectors from KEEP_FIRST to KEEP_LAST. -/
def Tap.kept (tp : Tap) : List Nat :=
  ((List.range (tp.keepLast + 1 - tp.keepFirst)).map (fun i => tp.slabOf (tp.keepFirst + i))).eraseDups

/-- R415: the flags of a rolling ring after the freeze, once its last sector is written and DMA is allowed; a slab that is no longer the
device's takes none (R371). -/
def ringFlags (s : State) (t : Nat) : State :=
  let tp := s.rtap t
  if !tp.flagsDue || !tp.full.isEmpty || !s.dmaOk then s
  else
    let kept := tp.kept
    let s := (List.range tp.count).foldl (fun s i =>
      let k := fld tp.ring 0 16 + i
      let owner := if kept.contains k then 2 else 3
      match SMap.find? s.hif.slabs k with
      | some g => slabEnd s k (g - 1) owner
      | none => if s.slabOk k (s.flagOf k) then flagPut s k (flagWith (s.flagOf k) owner) else s) s
    s.setTap t { s.rtap t with flagsDue := false }

/-- R419: one tap closes its open sector as its last and freezes. -/
def freezeTap (s : State) (t : Nat) : State :=
  let tp := s.rtap t
  if tp.frozen || !s.rbit .REC_TAP_CFG 0 t then s
  else
    let x := (Tap.readTo s s.nextCopy tp.queue tp).2
    let x := x.close true
    let x := { x with queue := [], skipPic := [], frozen := true, keepLast := x.serial + x.full.length - 1, flagsDue := x.rolling }
    let s := s.setTap t x
    let cs := s.copies.filter (fun c => c.tap.contains t)
    ringFlags (cs.foldl (fun s c => tapDone s c t) s) t

/-- R419: a rolling tap whose next slab holds a serial to be kept freezes at once; what it has not yet written is dropped (log
entry 34). -/
def freezeShort (s : State) (t : Nat) : State :=
  let s := freezeTap (s.setTap t { s.rtap t with shortPost := true }) t
  let x := s.rtap t
  ringFlags (s.setTap t { x with open_ := none, full := [], keepLast := x.serial - 1 }) t

/-- R419: every tap freezes and the state becomes FROZEN. -/
def freezeAll (s : State) : State :=
  let s := freezeTap (freezeTap s 0) 1
  let s := { s with ret := { s.ret with mode := .frozen } }.flag .REC_EVENT .REC_IRQ_EN 1
  let w := fun (n : Nat) => [BitVec.ofNat 32 n, BitVec.ofNat 32 (n / 2 ^ 32)]
  s.emitIf (s.rbit .REC_CTRL 1) 0xB2 0 0 (w (s.rtap 0).keepLast ++ w (s.rtap 1).keepLast)

/-! ### Triggers (R417, R418, R420) -/

/-- R418: the oldest serial whose sector a tap still has in its ring. -/
def Tap.oldest (tp : Tap) : Nat := tp.serial - tp.count

/-- R418: KEEP_FIRST of a tap for the instant T − PRE, and SHORT_PRE; an instant before time 0 lies in no span. -/
def Tap.findFirst (tp : Tap) (t pre : Nat) : Nat × Bool :=
  match tp.hist.find? (fun e => decide (pre ≤ t) && e.2 == (t - pre) / 100000000) with
  | some e => if tp.rolling && decide (e.1 < tp.oldest) then (tp.oldest, true) else (e.1, false)
  | none => (tp.oldest, true)

/-- R420: the announcement of a trigger, as a frame that the Retriever originates. -/
def announce (s : State) (source : Nat) (t : Wide) : State :=
  if s.rbit .REC_CTRL 6 && decide (1 ≤ source) && decide (source ≤ 3) then
    let mac := fun (lo hi : Reg) => beBytes ((s.reg lo).toNat + 2 ^ 32 * s.rfld hi 0 16) 6
    let tci := s.rfld .REC_ANN_CFG 28 3 * 8192 + s.rfld .REC_ANN_CFG 16 12
    let f := mac .REC_ANN_DMAC_LO .REC_ANN_DMAC_HI ++ mac .WIN_SRC_MAC_LO .WIN_SRC_MAC_HI ++ beBytes 0x8100 2 ++ beBytes tci 2 ++
      beBytes (s.rfld .REC_ANN_CFG 0 16) 2 ++ beBytes t.toNat 8 ++ [BitVec.ofNat 8 source]
    let f := padFrame f
    (enterHold s 23 .retriever f (f.length + 4) none false none).2
  else s

/-- R418: a trigger is taken: the instant, POST, the TRIGGER record of each enabled tap and KEEP_FIRST. -/
def takeTrigger (s : State) (source : Nat) (t : Wide) : State :=
  let s := { s with ret := { s.ret with mode := .post, source, trig := t, trigAt := s.beat } }
  let pre := s.rfld .REC_SPAN 16 16 * 100000000
  let s := (List.range 2).foldl (fun s n =>
    if s.rbit .REC_TAP_CFG 0 n && !(s.rtap n).frozen then
      let tp := (s.rtap n).place s.beat t false true (recHeader source false false true true 0 0 2 0 0 t)
      let f := tp.findFirst t.toNat pre
      s.setTap n { tp with keepFirst := f.1, shortPre := f.2 }
    else s) s
  let s := (s.flag .REC_EVENT .REC_IRQ_EN 0).emitIf (s.rbit .REC_CTRL 1) 0xB1 0 source
    [BitVec.ofNat 32 t.toNat, BitVec.ofNat 32 (t.toNat / 2 ^ 32)]
  announce s source t

/-- R418: a trigger that arrives in POST or FROZEN is ignored and counted on every enabled tap. -/
def ignoreTrigger (s : State) : State :=
  let s := (List.range 2).foldl (fun s n => if s.rbit .REC_TAP_CFG 0 n then s.bump (.tap n .TRIG_IGNORED) else s) s
  s.flag .REC_EVENT .REC_IRQ_EN 3

/-- R417, R418: a trigger arrives. Of two in one beat the one with the earlier T is accepted. -/
def recTrigger (s : State) (source : Nat) (t : Wide) : State :=
  match s.ret.mode with
  | .idle => s
  | .recording => takeTrigger s source t
  | .post =>
    if s.ret.trigAt = s.beat ∧ t < s.ret.trig then takeTrigger (ignoreTrigger s) source t else ignoreTrigger s
  | .frozen => ignoreTrigger s

/-- R255, R419: entry to the safe state freezes the ring as a trigger of source SAFE does, without POST. -/
def recSafe (s : State) : State :=
  match s.ret.mode with
  | .recording => freezeAll (takeTrigger s 5 s.now0)
  | .post => freezeAll (ignoreTrigger s)
  | .frozen => ignoreTrigger s
  | .idle => s

/-- R416: recording starts: the ring and mode of each tap are taken. -/
def recStart (s : State) : State :=
  let s := (List.range 2).foldl (fun s n =>
    s.setTap n { s.rtap n with ring := s.reg .REC_TAP_RING n, rolling := s.rbit .REC_TAP_CFG 1 n, frozen := false,
                               shortPre := false, shortPost := false, flagsDue := false }) s
  { s with ret := { s.ret with mode := .recording } }

/-- R417: the commit that clears REC_CTRL.EN stops recording: nothing more is marked or packed. -/
def recStop (s : State) : State :=
  let cs := s.copies.filter (fun c => !c.tap.isEmpty)
  let s := cs.foldl (fun s c => c.tap.foldl (fun s t =>
    match s.copyOf c.id with | some c' => tapDone s c' t | none => s) s) s
  let s := (List.range 2).foldl (fun s n => s.setTap n { s.rtap n with queue := [], skipPic := [], open_ := none, full := [] }) s
  { s with ret := { s.ret with mode := .idle } }

/-- REC_TRIGGER (R418): REC_CMD.TRIGGER. -/
def execRecTrigger (s : State) : Ans := onBar0 s .REC_CMD 0 (fun s => recTrigger s 1 s.now0)

/-- REC_FREEZE (R419): domain 0 has reached T + POST. -/
def execRecFreeze (s : State) : Ans :=
  onDie s (fun s =>
    if s.ret.mode == .post && decide (s.ret.trig.toNat + s.rfld .REC_SPAN 0 16 * 100000000 ≤ s.now0.toNat) then freezeAll s
    else s)

/-- R419: REC_CMD.REARM in FROZEN. -/
def recRearm (s : State) : State := if s.ret.mode == .frozen then recStart s else s

/-- REARM (R419). -/
def execRearm (s : State) : Ans := onBar0 s .REC_CMD 0 recRearm

/-! ### Writing sectors (R394, R414, R415) -/

/-- R412: the 4,096 bytes of a sector. -/
def sectorBytes (t serial : Nat) (x : Sector) : List Byte :=
  let fl := t + (if x.trig then 2 else 0) + (if x.cont then 4 else 0) + (if x.last then 8 else 0)
  slice (leBytes 0x43455352 4 ++ leBytes fl 4 ++ leBytes serial 8 ++ leBytes x.first.toNat 8 ++ leBytes x.records 2 ++
    leBytes (32 + x.body.length) 2 ++ leBytes 0 4 ++ x.body) 0 4096

/-- R414: the tweak of a sector. -/
def sectorTweak (t serial : Nat) (start : Word) : Nat := serial + t * 2 ^ 64 + start.toNat * 2 ^ 96

/-- R394: the key pair of a tap's XTS work, or none. -/
def xtsKeys (s : State) (t : Nat) (rep rep1 : CipherReport) : Option (List Byte × List Byte) × State :=
  let k := s.rfld .REC_TAP_CFG 3 6 t
  let full := fun (k : Nat) (key : List Byte) => (s.slot k).attr.klen && decide (key.length = 32)
  match useSlot s k useXts rep with
  | (none, s) => (none, s)
  | (some a, s) =>
    if !full k a then (none, s)
    else if !s.rbit .REC_TAP_CFG 2 t then (some (a.take 16, a.drop 16), s)
    else if k % 2 = 1 then (none, s)
    else match useSlot s (k + 1) useXts rep1 with
      | (none, s) => (none, s)
      | (some b, s) => if full (k + 1) b then (some (a, b), s) else (none, s)

/-- R414: the sector of serial `n` failed: its slab is written 11 and a record placed. -/
def sectorFail (s : State) (t n k : Nat) (f : Byte) : State :=
  let s := (slabEnd s k (f.toNat / 4) 3).bump (.tap t .REC_FAIL)
  (s.flag .REC_EVENT .REC_IRQ_EN 2).emitIf (s.rbit .REC_CTRL 1) 0xB0 t 0
    [BitVec.ofNat 32 n, BitVec.ofNat 32 (n / 2 ^ 32)]

/-- The head sector `x` of a tap goes to slab `k`, whose flag reads `f`. -/
def sectorOut (s : State) (t : Nat) (x : Sector) (f : Byte) (rep rep1 : CipherReport) : State :=
  let tp := s.rtap t
  let n := tp.serial
  let k := tp.slabOf n
  let y := xtsKeys s t rep rep1
  let c := if y.1.isSome then xtsCore y.2 else (none, y.2)
  let s := c.2
  let z : Bool × State := match y.1, c.1 with
    | some ks, some core =>
      if rep.mismatch then (false, sectorFail (laneMismatch s core 2) t n k f)
      else
        let data := xts ks.1 ks.2 (sectorTweak t n (s.reg .KEEP_CTR 30)) (sectorBytes t n x)
        let s := (s.put (.hostWrite (s.slabAddr k) data)).bump (.tap t .SECTORS)
        (true, if tp.rolling then slabKeep s k f else slabEnd s k (f.toNat / 4) 2)
    | _, _ => (false, sectorFail s t n k f)
  let s := z.2
  let span := s.now0.toNat / 100000000
  let hist := match tp.hist.getLast? with
    | some e => if e.2 = span || !z.1 then tp.hist else tp.hist ++ [(n, span)]
    | none => if z.1 then [(n, span)] else []
  s.setTap t { s.rtap t with serial := n + 1, full := tp.full.drop 1, hist }

/-- SECTOR_WRITE (R414): the oldest closed sector of tap `t` is encrypted and written to its slab, whose flag reads `flag`; a
slab that is not the device's makes the tap wait (R415). -/
def execSectorWrite (t : Fin 2) (flag : Byte) (reps : SlotPair) (s : State) : Ans :=
  onDie s (fun s =>
    let tp := s.rtap t
    match tp.full with
    | [] => s
    | x :: _ =>
      if tp.rolling && s.ret.mode == .post && !tp.frozen && decide (tp.count ≤ tp.serial) &&
          decide (tp.keepFirst ≤ tp.serial - tp.count) then
        freezeShort s t
      else if !s.dmaOk then s
      else
        let s := flagsSeen s [(tp.slabOf tp.serial, flag)]
        if !s.slabOk (tp.slabOf tp.serial) flag then s else ringFlags (sectorOut s t x flag reps.rep reps.rep1) t)

/-- R420: does a frame that Shepherd receives announce a trigger that this device accepts. -/
def State.announced (s : State) (p : Parts) : Bool :=
  s.rbit .REC_CTRL 7 && beNat p.rest 0 2 == s.rfld .REC_ANN_CFG 0 16 &&
    (let vid := match p.tci? 0x8100 with | some t => t % 4096 | none => 0
     (List.range 8).any (fun a => s.rbit .WIN_ACCEPT_HI 31 a && s.rfld .WIN_ACCEPT_HI 16 12 a == vid &&
       ((s.reg .WIN_ACCEPT_LO a).toNat + 2 ^ 32 * s.rfld .WIN_ACCEPT_HI 0 16 a == beNat p.addrs 6 6)))

/-- ANNOUNCEMENT_RECEIVE (R420): the copy that P23 reads is an accepted announcement; Shepherd takes it and the Retriever is
triggered with its instant. -/
def execAnnouncementReceive (k : Nat) (s : State) : Ans :=
  onDie s (fun s =>
    if (s.port 23).cur != some k then s
    else match s.copyOf k with
      | none => s
      | some c =>
        let p := partsOf c.bytes
        if s.announced p then recTrigger (sentSvc s c) 4 (BitVec.ofNat 64 (beNat p.rest 2 8)) else s)

end Sys2Proof.Machine
end

