-- ==== Sys2Proof/Machine/Safe.lean ====
section
/-! DEFINITION. Entry to the safe state and the commands that request it or its leave (R254 to R257, R290, R323, R345). -/

namespace Sys2Proof.Machine

/-- R163, R253: the outstanding hook requests are withdrawn; their frames, and every held frame without an accepted decision,
are parsed and decided again. -/
def withdrawHooks (s : State) : State :=
  let s := { s with held := s.held.map (fun h =>
    if h.admitted then h else { h.undecided with key := none, video := none, marks := [] }) }
  (List.range 4).foldl (fun s e =>
    let g := s.engine (8 + e)
    s.setEngine (8 + e) { g with hookPart := [], hookOpen := [], item := g.item.map (fun i => { i with hook := none }) }) s

/-- R255: queued copies and held frames are dropped. -/
def safeFlush (s : State) : State :=
  let l : Loss := { ctr := some .SAFE_FLUSH, code := 0x629, safe := true, pic := some 41 }
  let s := (List.range 24).foldl (fun s n => (flushQueues s n l).2) s
  let s := s.held.foldl (fun s h =>
    if h.admitted then s else dropFrame (s.bump (.ingress h.port)) h 2 0) s
  { s with held := [] }

/-- R290: transmit memories, open containers and those waiting for P23 are emptied, each frame counted. -/
def gatewayFlush (s : State) : State :=
  let n := (List.range 8).foldl (fun a c => a + (s.can c).tx.length) 0 +
    (List.range 16).foldl (fun a t => a + (SMap.get ({} : Tun) s.gw.tun t).msgs.length) 0 + s.gw.closed.length
  let s := (List.range 8).foldl (fun s c => s.setCan c { s.can c with tx := [] }) s
  let tun := (List.range 16).foldl (fun m t => SMap.upd ({} : Tun) m t (fun x => { x with msgs := [] })) s.gw.tun
  ({ s with gw := { s.gw with tun, closed := [] } }).bump (.device .GW_SAFE_FLUSH) n

/-- R231, R255: a plane presents claim 0x00 and holds no state to be trusted. -/
def Plane.silent (p : Plane) : Plane :=
  { p with claim := 0, mode := if p.mode = .failed then .failed else .selftest }

/-- R255: the engines that the safe state halts. -/
def safeHalts (e : Nat) : Bool := decide (e ≤ 11) || decide (14 ≤ e)

/-- R254, R255: the device enters the safe state. -/
def enterSafe (s : State) (cause : Nat) : State :=
  let s := if s.actId.isSome then { s with twin := { s.twin with lastMem := s.act.mem } } else s
  let s := { s with twin := { s.twin with safe := true, cause, a := s.twin.a.silent, b := s.twin.b.silent, accepted := none,
                                          switch := .none, swapReq := false, leaving := false } }
  let s := s.setReg .KEEP_SAFE_CAUSE (BitVec.ofNat 32 (cause + (s.reg .KEEP_CTR 31).toNat % 65536 * 65536))
  let s := faultLog s cause
  let s := (s.flag .TWIN_EVENT .TWIN_IRQ_EN 6).emitIf (s.rbit .TWIN_CTRL 2) 0x54 0 cause
  let s := gatewayFlush (actSafe (recSafe (safeFlush (withdrawHooks s))))
  let s := (List.range 16).foldl (fun s e => if safeHalts e then s.setEngine e { s.engine e with halted := true } else s) s
  { s with twin := { s.twin with safe := true, cause, accepted := none, a := s.twin.a.silent, b := s.twin.b.silent },
           held := [], bug := { s.bug with faultN := true }, gpioHold := some (s.reg .GLB_GPIO_OE, s.reg .GLB_GPIO_OUT),
           clk := { s.clk with shepDown := s.clk.shepDown || cause == 5 } }

/-- R254, R509: a doubt. Before READY it is entered at the end of phase 6; in the safe state nothing is left to enter. -/
def doubt (s : State) (cause : Nat) : State :=
  if s.twin.safe then s
  else if s.clk.phase < 7 then { s with clk := { s.clk with doubt := if s.clk.doubt = 0 then cause else s.clk.doubt } }
  else enterSafe s cause

/-- SAFE_STATE_ENTRY (R255): a doubt of R254; cause codes are 1 to 7. -/
def execSafeStateEntry (cause : Fin 8) (s : State) : Ans := onDie s (fun s => if cause.val = 0 then s else doubt s cause)

/-- NO_CLAIM (R254): three consecutive boundaries without an accepted claim, once READY. -/
def execNoClaim (s : State) : Ans := onDie s (fun s => if 3 ≤ s.twin.noclaim ∧ s.clk.phase = 7 then doubt s 4 else s)

/-- R257: every clock and supply monitor passes. -/
def State.monitorsOk (s : State) : Bool := s.reg .CLK_MON_STATUS == 0x003F3F07 && s.reg .BUG_RAIL_STATUS == 0x1F

/-- R257: a leave is requested. -/
def requestLeave (s : State) : State :=
  if !s.twin.safe || s.twin.leaving then s
  else if s.twin.cause = 5 ∨ s.twin.cause = 6 then { s with twin := { s.twin with result := 3 } }
  else if !s.monitorsOk then { s with twin := { s.twin with result := 2 } }
  else { s with twin := { s.twin with result := 1, leaving := true } }

/-- R257: a write to TWIN_SAFE_CTRL. -/
def safeCtrlWrite (s : State) (w : Word) : State :=
  if fld w 0 16 ≠ 0xC1EA then s
  else if bit w 16 && bit w 17 then s
  else if bit w 17 then doubt s 7
  else if bit w 16 then requestLeave s
  else s

/-- HOST_FORCE (R257): TWIN_SAFE_CTRL written with FORCE. -/
def execHostForce (w : Word) (s : State) : Ans := onBar0 s .TWIN_SAFE_CTRL 0 (fun s => safeCtrlWrite s (setBit w 17 true))

/-- SAFE_LEAVE (R257): TWIN_SAFE_CTRL written with CLEAR. -/
def execSafeLeave (w : Word) (s : State) : Ans := onBar0 s .TWIN_SAFE_CTRL 0 (fun s => safeCtrlWrite s (setBit w 16 true))

end Sys2Proof.Machine
end

