-- ==== Sys2Proof/Machine/Twin.lean ====
section
/-! DEFINITION. The twin arbiter: health, claims and acceptance, the state copy, self-test, RESYNC, and the passing of control
from one plane to the other (R231 to R253). -/

namespace Sys2Proof.Machine

/-! ### Health and claims (R231 to R236, R248) -/

/-- R248: SCORE. -/
def Plane.score (p : Plane) : Nat := 63 - (p.ceCur + p.cePrev)

/-- R232: is plane `b` an eligible standby. -/
def State.eligibleStandby (s : State) (b : Bool) : Bool :=
  let p := s.plane b
  p.mode == .standby && !p.lagging && p.stOk && !p.sliceBad && decide (s.rfld .TWIN_CTRL 8 6 ≤ p.score)

/-- R231: the claim that a plane's state gives it. -/
def State.claimOf (s : State) (b : Bool) : Nat :=
  match (s.plane b).mode with
  | .active => 0xC0 + (s.plane b).score
  | .standby => if s.eligibleStandby b then 0x80 else 0
  | _ => 0

/-- R234: the plane whose work is accepted. -/
def acceptedOf (a b : Nat) : Option Bool :=
  if 0xC0 ≤ a ∧ b < a then some false else if 0xC0 ≤ b ∧ a < b then some true else none

/-- R234: acceptance follows the claims. -/
def reaccept (s : State) : State :=
  { s with twin := { s.twin with accepted := if s.twin.safe then none else acceptedOf s.twin.a.claim s.twin.b.claim } }

/-- A standby that has become ineligible presents claim 0x00 (R231). -/
def dropClaim (s : State) (b : Bool) : State :=
  if (s.plane b).mode == .standby && !s.eligibleStandby b then s.setPlane b { s.plane b with claim := 0 } else s

/-- R238: a plane that enters SELFTEST loses its state and its queues; its health history stays. -/
def Plane.fall (p : Plane) (m : PlaneMode) : Plane :=
  { mode := m, stOk := p.stOk, sliceBad := p.sliceBad, failSeg := p.failSeg, passes := p.passes, ceCur := p.ceCur, cePrev := p.cePrev, giveUps := p.giveUps, eccBeat := p.eccBeat }

/-- R248: the standby left STANDBY other than by promotion. -/
def standbyLost (s : State) (b : Bool) : State :=
  if (s.plane b).mode == .standby then s.flag .TWIN_EVENT .TWIN_IRQ_EN 1 else s

/-- R100, R110: what a plane that takes over goes on with: the generations outstanding, the flushes that wait, and the place of the stream
sweeper. -/
def Plane.goOn (p old : Plane) : Plane :=
  { p with genOut := old.genOut, genOld := old.genOld, flushWait := old.flushWait, strBase := old.strBase, strSweep := old.strSweep,
           strLast := old.strLast }

/-- R249: the active plane `b` is lost: hooks are withdrawn and the switchover gap begins; what was not yet received is lost. The standby
keeps the generations and the flushes that wait. -/
def startGap (s : State) (b : Bool) : State :=
  let s := withdrawHooks s
  let o := s.plane (!b)
  let s := if o.mode = .standby then s.setPlane (!b) (o.goOn (s.plane b)) else s
  { s with twin := { s.twin with switch := .gap false, dirty := [], exactQ := [], lazyQ := [], metered := [] } }

/-- R238 to R240: plane `b` gives up for an error of beat `n`: claim 0x00 at once, SELFTEST, or FAILED at the fourth give-up within 2^20
beats. A plane in SELFTEST counts an uncorrectable error and a plane in FAILED is not read (R239); DESIGN CHOICE (log entry 88): the count
is TABLE_CE, the one counter of errors in tables. -/
def giveUp (s : State) (b : Bool) (ecc : Bool) (n : Beat) : State :=
  let p := s.plane b
  if p.mode == .selftest then (if ecc then s.bump (.device .TABLE_CE) else s)
  else if p.mode == .failed then s
  else
    let was := p.mode == .active && s.actId != some (!b)
    let other := s.plane (!b)
    let recent := p.giveUps.filter (fun x => decide ((n - x).toNat < 2 ^ 20))
    let failed := decide (3 ≤ recent.length)
    let doubtEcc := ecc && was && (!s.eligibleStandby (!b) || other.eccBeat == some n)
    let doubtBoth := ecc && p.mode == .standby && other.eccBeat == some n
    let s := standbyLost s b
    let s := if was then { s with twin := { s.twin with lastMem := p.mem } } else s
    let p := { p with giveUps := recent ++ [n], eccBeat := if ecc then some n else p.eccBeat }
    let s := if s.actId = some b then startGap s b else s
    let s := s.setPlane b (p.fall (if failed then .failed else .selftest))
    let s := if failed then faultLog s 22 else s
    let s := reaccept s
    let s := if s.upd.act = 4 && !was then actPlaneFail s else s
    if doubtEcc || doubtBoth then doubt s 1 else s

/-- PIPELINE_WATCHDOG (R238): a stage has held an item for more than 64 core clocks. -/
def execPipelineWatchdog (pl : Bool) (s : State) : Ans := onDie s (fun s => giveUp s pl false s.beat)

/-- R252: TWIN_CMD.SWAP. The switchover that an ACTIVATE is asking for stays the ACTIVATE's. -/
def requestSwap (s : State) : State :=
  match s.twin.accepted with
  | some b =>
    if s.eligibleStandby (!b) then { s with twin := { s.twin with swapReq := true, swapAct := s.twin.swapReq && s.twin.swapAct } }
    else s.flag .TWIN_EVENT .TWIN_IRQ_EN 5
  | none => s.flag .TWIN_EVENT .TWIN_IRQ_EN 5

/-- SWAP (R252). -/
def execSwap (s : State) : Ans := onBar0 s .TWIN_CMD 0 requestSwap

/-! ### Table commands in progress (R125, R253) -/

/-- One table command completes: with its own outcome, or with SWITCHOVER. -/
def settleCmd (s : State) (c : TblCmd) (sw : Bool) : State :=
  if c.gone then s else match c.src with
  | .reg _ =>
    if sw then s.setRfld .TBL_STATUS 0 4 14
    else
      let s := s.setRfld .TBL_STATUS 0 4 c.code
      let s := match c.moves with | some m => s.setRfld .TBL_STATUS 4 8 m | none => s
      let s := match c.index with | some i => s.setRfld .TBL_INDEX 0 16 i | none => s
      (match c.data with
        | some d => (List.range d.length).foldl (fun s i => s.setReg .TBL_DATA (wd d i) i) s
        | none => s)
  | .ring r idx _ _ => updDesc s (64 + r.val) idx.toNat (fun d => { d with state := 3, status := if sw then 2 else 0 })
  | .batch r idx _ =>
    let more := s.twin.cmds.any (fun x => match x.src with | .batch r' i' _ => r' == r && i' == idx | _ => false)
    updDesc s (64 + r.val) idx.toNat (fun d => { d with
      state := if more || d.state == 1 then d.state else 3, status := if sw then 2 else d.status,
      recs := if sw then d.recs.modify c.pos (fun x => (x.1, wsetFld x.2 3 0 4 14)) else d.recs })

/-- Settles the commands of a list, which have left the list of those in progress. -/
def settleAll (s : State) (l rest : List TblCmd) (sw : Bool) : State :=
  (l.foldl (fun (acc : State × List TblCmd) c =>
    let t := acc.2.drop 1
    (settleCmd { acc.1 with twin := { acc.1.twin with cmds := t ++ rest } } c sw, t)) (s, l)).1

/-- R128, R240: the table command that ran last has read an entry with an uncorrectable error: it completes with ECC. -/
def eccCommand (s : State) : State :=
  match s.twin.cmds.getLast? with
  | none => s
  | some c =>
    let s := { s with twin := { s.twin with cmds := s.twin.cmds.dropLast } }
    let ended := fun (d : Desc) => if d.detail = 0 then { d with detail := 12, res6 := 0xC00 } else d
    if c.gone then s else match c.src with
    | .reg _ => s.setRfld .TBL_STATUS 0 4 12
    | .ring r idx _ _ => updDesc s (64 + r.val) idx.toNat (fun d => { d with state := 3, detail := 12, res6 := 0xC00, data := [] })
    | .batch r idx _ =>
      let more := s.twin.cmds.any (fun x => match x.src with | .batch r' i' _ => r' == r && i' == idx | _ => false)
      updDesc s (64 + r.val) idx.toNat (fun d => { ended d with
        state := if more || d.state == 1 then d.state else 3
        recs := d.recs.modify c.pos (fun x => (x.1, wsetFld x.2 3 0 4 12))
        res7 := if d.detail = 0 then BitVec.ofNat 32 (c.pos + d.res7.toNat / 65536 * 65536) else d.res7 })

/-- GIVE_UP (R238): a plane finds a fatal error; a table command reads entries of the ACTIVE plane. -/
def execGiveUp (pl : Bool) (why : GiveUpCause) (s : State) : Ans :=
  onDie s (fun s =>
    let s := if why = .command ∧ (s.plane pl).mode = .active then eccCommand s else s
    giveUp s pl (why == .ecc || why == .command) s.beat)

/-- R125: does the standby, if any follows, hold every exact record of a command. -/
def State.cmdHeld (s : State) (c : TblCmd) : Bool :=
  s.twin.windowDone && !ahead c.beat s.beat && !(s.twin.a.mode == .resync || s.twin.b.mode == .resync) &&
    !s.twin.exactQ.any (fun r => r.cmd && !ahead r.beat c.beat)

/-- R125: commands whose records have all been received complete. -/
def completeCmds (s : State) : State :=
  let done := s.twin.cmds.filter s.cmdHeld
  settleAll s done (s.twin.cmds.filter (fun c => !s.cmdHeld c)) false

/-! ### The state copy (R241 to R246) -/

/-- The other plane, if it follows the active one. -/
def State.follower (s : State) : Option Bool :=
  match s.actId with
  | none => none
  | some b => let m := (s.plane (!b)).mode; if m == .standby || m == .resync then some (!b) else none

/-- R241: the records of the changes of this beat: exact then lazy, and the meters that metered. -/
def State.newRecs (s : State) : List CopyRec × List CopyRec :=
  let mk := fun (e : Dirty) => ({ parts := (e.key :: e.parts).map (fun k => (k, SMap.get [] s.act.mem k)), exact := e.exact, bytes := e.bytes,
                                  beat := s.beat, cmd := e.cmd } : CopyRec)
  let mt := s.twin.metered.map (fun m => mk { key := Space.meter.key m, exact := true, bytes := 16, cmd := false, parts := [] })
  ((s.twin.dirty.filter (·.exact)).map mk ++ mt, (s.twin.dirty.filter (fun e => !e.exact)).map mk)

/-- Bytes of a queue of records. -/
def recBytes (l : List CopyRec) : Nat := l.foldl (fun a r => a + r.bytes) 0

/-- The longest prefix of records that fits into `n` bytes, and the rest. -/
def takeRecs : Nat → List CopyRec → List CopyRec × List CopyRec
  | _, [] => ([], [])
  | n, r :: t => if r.bytes ≤ n then let x := takeRecs (n - r.bytes) t; (r :: x.1, x.2) else ([], r :: t)

/-- R241: a lazy record carries only a time stamp or hit bits: it sets them in the entry, where the plane still holds the same one. -/
def Plane.stampWr (p : Plane) (k : Nat) (ws : List Word) : Plane :=
  let old := SMap.get [] p.mem k
  if k / 2 ^ 20 = Space.fdb.ctorIdx then
    (if fdbValid old && fdbKeys old == fdbKeys ws then p.wr k (wsetFld old 2 21 8 (wfld ws 2 21 8)) else p)
  else if k / 2 ^ 20 = Space.stream.ctorIdx then
    (if strValid old then p.wr k (wsetFld old 6 28 2 (wfld ws 6 28 2)) else p)
  else if k / 2 ^ 20 = Space.conn.ctorIdx then
    (if ctValid old && ctKey old == ctKey ws then p.wr k (wsetFld old 9 21 8 (wfld ws 9 21 8)) else p)
  else p

/-- Records applied whole, in order. -/
def Plane.apply (p : Plane) (l : List CopyRec) : Plane :=
  l.foldl (fun p r => r.parts.foldl (fun p e => if r.exact then p.wr e.1 e.2 else p.stampWr e.1 e.2) p) p

/-- R242: the oldest lazy records beyond 32 KiB are discarded: what stays, and how many went. -/
def lazyTrim : List CopyRec → List CopyRec × Nat
  | [] => ([], 0)
  | r :: t => if 32768 < recBytes (r :: t) then let x := lazyTrim t; (x.1, x.2 + 1) else (r :: t, 0)

/-- R243: the follower's LAGGING state after a window. -/
def noteLagging (s : State) (f : Bool) (left : List CopyRec) : State :=
  let p := s.plane f
  if p.mode != .standby then s
  else
    let behind := left.any (fun r => r.beat != s.beat)
    let s := s.setPlane f { p with lagging := behind }
    let s := if behind && !p.lagging then
        (s.flag .TWIN_EVENT .TWIN_IRQ_EN 2).emitIf (s.rbit .TWIN_CTRL 2) 0x51 0 ((recBytes left + 31) / 32)
      else s
    dropClaim s f

/-- R242: the copy window of the running beat: at most 16 KiB of exact records (all of them in a planned switchover), then the
lazy records. Records beyond the 64 KiB of the exact queue make the standby DESYNC, by the command of that name. -/
def copyWindow (s : State) : State :=
  if s.twin.windowDone then s
  else
    let x := s.newRecs
    let s := { s with twin := { s.twin with dirty := [], metered := [], windowDone := true } }
    match s.follower with
    | none => { s with twin := { s.twin with exactQ := [], lazyQ := [], lastWords := 0 } }
    | some f =>
      let whole := match s.twin.switch with | .planned _ => true | _ => false
      let q := s.twin.exactQ ++ x.1
      let y := if whole then (q, []) else takeRecs 16384 q
      let z := lazyTrim (s.twin.lazyQ ++ x.2)
      let s := s.setPlane f (((s.plane f).apply y.1).apply z.1)
      let s := s.bump (.device .LAZY_DROP) z.2
      let s := { s with twin := { s.twin with exactQ := y.2, lazyQ := [], lastWords := (recBytes y.1 + 31) / 32 } }
      if 65536 < recBytes y.2 then s else noteLagging s f y.2

/-- R242: the standby has lost a record and receives the whole state anew. -/
def desync (s : State) (detail : Nat) : State :=
  match s.follower with
  | none => s
  | some f =>
    let s := standbyLost s f
    let s := s.setPlane f { s.plane f with mode := .resync, claim := 0, lagging := false }
    let s := { s with twin := { s.twin with exactQ := [], lazyQ := [] } }
    (s.flag .TWIN_EVENT .TWIN_IRQ_EN 3).emitIf (s.rbit .TWIN_CTRL 2) 0x52 0 detail

/-- DESYNC (R242): a link word fails its CRC, or the exact queue has overflowed its 64 KiB. -/
def execDesync (crc : Bool) (s : State) : Ans :=
  onDie s (fun s => if crc then desync s 1 else if 65536 < recBytes s.twin.exactQ then desync s 2 else s)

/-- RESYNC_END (R246): the plane in RESYNC holds the whole state and becomes STANDBY. In an ACTIVATE that ends step 4, and
the planned switchover of step 6 is asked for, or step 7 (R471). -/
def execResyncEnd (s : State) : Ans :=
  onDie s (fun s => match s.actId, s.follower with
    | some b, some f =>
      if (s.plane f).mode != .resync then s
      else
        let s := { s with twin := { s.twin with exactQ := [], lazyQ := [] } }
        let s := s.setPlane f { s.plane f with mode := .standby, mem := (s.plane b).mem, lagging := false, slice := 0 }
        let s := s.setPlane f { s.plane f with claim := s.claimOf f }
        if s.upd.act = 4 then
          { s with upd := { s.upd with act := 6 }, twin := { s.twin with swapReq := true, swapAct := true, swapTries := 0 } }
        else if s.upd.act = 7 then { s with upd := { s.upd with act := 8 } } else s
    | _, _ => s)

/-- SELFTEST_DONE (R247): a plane in SELFTEST ends its full pass. A failure in step 4 of an ACTIVATE ends it, and the plane is
reloaded with the running microcode and tested anew (R473). -/
def execSelftestDone (pl : Bool) (pass : Bool) (seg : Fin 32) (s : State) : Ans :=
  onDie s (fun s =>
    let p := s.plane pl
    let p := { p with passes := (p.passes + 1) % 256 }
    if p.mode != .selftest || s.twin.safe || (maskBit s.bug.dozed 36 && s.actId != some pl) then s
    else if pass then s.setPlane pl { p with mode := .resync, stOk := true, sliceBad := false, slice := 0 }
    else if s.upd.act = 4 && s.actId != some pl then actPlaneFail (s.setPlane pl { p with stOk := false, failSeg := seg })
    else
      let s := s.setPlane pl { p with mode := .failed, stOk := false, failSeg := seg }
      if s.upd.act = 7 then { s with upd := { s.upd with act := 8 } } else s)

/-- R125, R242: the closing part of a beat: the maintenance slice has ended, the copy window runs, and the table commands complete whose
records the standby holds. -/
def windowClose (s : State) : State :=
  let s := copyWindow (sliceClose s)
  if s.twin.safe || s.actId.isNone then s else completeCmds s

/-- TBL_CMD_COMPLETE (R125): the copy window of the running beat has closed, and the commands complete whose records the
standby holds. -/
def execTblCmdComplete (s : State) : Ans :=
  onDie s (fun s => if s.twin.safe || s.actId.isNone then s else windowClose s)

/-! ### Passing control (R235, R245, R249, R252, R253) -/

/-- R245: the state fields of the valid stream entries come from the sequence mirror. -/
def mirrorLoad (s : State) (p : Plane) : Plane :=
  (p.ents .stream).foldl (fun p e =>
    if !strValid e.2 then p
    else
      let m := SMap.get {} s.twin.mirror e.1
      let w := wsetFld (wsetFld e.2 11 0 16 m.genSeq) 11 16 16 m.recSeq
      let w := wset w 12 (BitVec.ofNat 32 m.history)
      let w := wsetFld (wsetFld w 10 20 1 (if m.takeAny then 1 else 0)) 8 15 1 (if m.blocked then 1 else 0)
      (p.wr (Space.stream.key e.1) w).wr (Space.lastAcc.key e.1) [BitVec.ofNat 32 m.lastAcc]) p

/-- R289: the freshness fields of the filter entries come from the freshness mirror. -/
def freshLoad (s : State) (p : Plane) : Plane :=
  s.twin.fresh.foldl (fun p e =>
    let w := p.rd .filter e.1
    if w.isEmpty then p
    else p.wr (Space.filter.key e.1) (wset (wset (wset (wsetFld w 5 4 1 (wfld e.2 0 4 1)) 6 (wd e.2 1)) 7 (wd e.2 2)) 8 (wd e.2 3))) p

/-- R200: the meters start from the checkpoint with the refill of its boundary. -/
def meterLoad (s : State) (p : Plane) : Plane :=
  s.twin.refilled.foldl (fun p e => p.wr (Space.meter.key e.1) e.2)
    { p with mem := SMap.keep (fun k => k / 2 ^ 20 != Space.meter.ctorIdx) p.mem }

/-- R253: what a command that did not complete had changed is taken back. -/
def undoCmds (s : State) (p : Plane) : Plane :=
  s.twin.cmds.reverse.foldl (fun p c => c.undo.reverse.foldl (fun p e => p.wr e.1 e.2) p) p

/-- R241, R253: the prepared registers as plane `p` holds them. -/
def Plane.prepRegs (p : Plane) : SMap Word :=
  p.mem.foldl (fun m e => if 2 ^ 31 ≤ e.1 then SMap.put m (e.1 - 2 ^ 31) (wd e.2 0) else m) []

/-- Plane `b` becomes ACTIVE: `old` is the plane it follows, `planned` says how. In an unplanned switchover the prepared register writes
whose records it has not received are lost (R253). -/
def promote (s : State) (b : Bool) (old : Plane) (planned : Bool) : State :=
  let s := if planned then s else { s with prep := (s.plane b).prepRegs }
  let p := undoCmds s (s.plane b)
  let p := meterLoad s (freshLoad s (mirrorLoad s p))
  let p := if planned then p.goOn old else p
  let p := { p with mode := .active,
                    learnQ := if planned then old.learnQ else [], refreshQ := if planned then old.refreshQ else [],
                    createQ := if planned then old.createQ else [], updateQ := if planned then old.updateQ else [] }
  let s := s.setPlane b { p with claim := 0xC0 + p.score }
  let s := settleAll s s.twin.cmds [] true
  let s := if s.twin.cmdWait then s.setRfld .TBL_STATUS 0 4 14 else s
  let s := { s with twin := { s.twin with cmdWait := false, switch := .none, exactQ := [], lazyQ := [], dirty := [], metered := [] } }
  let s := s.setReg .TWIN_LAST_SW_LO (BitVec.ofNat 32 s.beat.toNat)
  let s := s.setReg .TWIN_LAST_SW_HI (BitVec.ofNat 32 (s.beat.toNat / 2 ^ 32 + (if planned then 2 ^ 16 else 0) + (if b then 2 ^ 17 else 0)))
  (s.flag .TWIN_EVENT .TWIN_IRQ_EN 0).emitIf (s.rbit .TWIN_CTRL 2) 0x50 0 ((if b then 1 else 0) + (if planned then 2 else 0))

/-- The standby that could take over, if any. -/
def State.anyEligible (s : State) : Option Bool :=
  if s.eligibleStandby false then some false else if s.eligibleStandby true then some true else none

/-- R249: the progress of an unplanned switchover at a boundary. -/
def gapStep (s : State) (b1 : Bool) : State :=
  match s.anyEligible with
  | none => { s with twin := { s.twin with switch := .gap false } }
  | some b =>
    if b1 then
      let s := promote s b (s.plane (!b)) false
      if s.actSwitching then actSwitched s ((s.plane (!b)).mode == .failed) else s
    else { s with twin := { s.twin with switch := .gap true } }

/-- R252: the second boundary of a planned switchover; with `act` the former active plane enters SELFTEST for new microcode. -/
def plannedStep (s : State) (act : Bool) : State :=
  match s.actId with
  | none => { s with twin := { s.twin with switch := .gap false } }
  | some b =>
    if (s.plane (!b)).mode != .standby then { s with twin := { s.twin with switch := .none, swapReq := act, swapAct := act } }
    else
      let old := s.plane b
      let s := s.setPlane b { old with mode := .standby, claim := 0, slice := 0, lagging := false, learnQ := [], refreshQ := [],
                                       createQ := [], updateQ := [], delQ := [], ctDelQ := [] }
      let s := promote s (!b) old true
      if act then actSwitched (s.setPlane b ((s.plane b).fall .selftest)) false
      else
        let s := s.setPlane b { s.plane b with mem := (s.plane (!b)).mem }
        s.setPlane b { s.plane b with claim := s.claimOf b }

/-- R252, R473: an ACTIVATE tries its switchover again at the next boundary, for 1 s; then it fails, and the standby is reloaded. -/
def swapRetry (s : State) : State :=
  if s.twin.swapTries + 1 < 125000 then { s with twin := { s.twin with swapTries := s.twin.swapTries + 1 } }
  else
    let s := { s with twin := { s.twin with swapReq := false, swapTries := 0 } }
    actPlaneFail (match s.actId with
      | some b =>
        if (s.plane (!b)).mode == .failed then s
        else (standbyLost s (!b)).setPlane (!b) ((s.plane (!b)).fall .selftest)
      | none => s)

/-- R252: the boundary at which a planned switchover is judged again: it starts, is dropped, or for an ACTIVATE is tried
again, at most 125,000 times. -/
def swapStep (s : State) : State :=
  if !s.twin.swapReq then s
  else match s.twin.accepted with
    | some b =>
      if s.eligibleStandby (!b) then
        let s := withdrawHooks (s.setPlane b { s.plane b with claim := 0 })
        { s with twin := { s.twin with swapReq := false, swapTries := 0, switch := .planned s.twin.swapAct } }
      else if s.twin.swapAct then swapRetry s
      else { s with twin := { s.twin with swapReq := false } }.flag .TWIN_EVENT .TWIN_IRQ_EN 5
    | none =>
      if s.twin.swapAct then swapRetry s
      else { s with twin := { s.twin with swapReq := false } }.flag .TWIN_EVENT .TWIN_IRQ_EN 5

/-! ### The planes at a boundary (R233 to R236, R238, R247 to R249) -/

/-- R238, R239: the errors that a plane met in the beat just ended are counted: correctable ones, and the uncorrectable ones of a plane in
SELFTEST. -/
def planeCounts (s : State) (b : Bool) (ce : Nat) (uce : Bool) : State :=
  let p := s.plane b
  if p.mode == .active || p.mode == .standby || p.mode == .resync then
    (s.bump (.device .TABLE_CE) ce).setPlane b { p with ceCur := p.ceCur + ce }
  else if p.mode == .selftest && uce then s.bump (.device .TABLE_CE) else s

/-- What a plane found in the beat just ended, its errors counted: watchdog, canary and self-test slice. -/
def planeNews (s : State) (b : Bool) (uce canary watch segBad : Bool) : State :=
  let p := s.plane b
  let p := { p with renewOk := watch && canary }
  let p := if p.mode == .standby then
      let bad := p.sliceBad || segBad
      let p := { p with failSeg := if segBad then p.slice % 32 else p.failSeg, slice := p.slice + 1, sliceBad := bad }
      if 256 ≤ p.slice then { p with slice := 0, stOk := !bad, sliceBad := false, passes := (p.passes + 1) % 256 }
      else p
    else p
  let s := s.setPlane b p
  if (s.plane b).mode == .selftest then s
  else
    let s := if uce then giveUp s b true (s.beat - 1) else s
    if !canary && (s.plane b).mode != .selftest then giveUp s b false (s.beat - 1) else s

/-- R248: the health windows turn every 2^17 beats, and with them the counts of R389. -/
def healthWindow (s : State) : State :=
  if s.beat.toNat % 2 ^ 17 = 0 then
    let turn := fun (p : Plane) => { p with cePrev := p.ceCur, ceCur := 0 }
    { s with twin := { s.twin with a := turn s.twin.a, b := turn s.twin.b } }.setReg .CRY_CORE_STATUS 0
  else s

/-- R233: a plane renews its claim, or presents 0x00. -/
def renewClaim (s : State) (b : Bool) : State :=
  let p := s.plane b
  let swapping := match s.twin.switch with | .planned _ => p.mode == .active | _ => false
  s.setPlane b { p with claim := if p.renewOk && !swapping then s.claimOf b else 0 }

/-- R235, R236: equal claims are accepted by no one and Twin B gives way; of two ACTIVE claims the lower gives way. -/
def resolveClaims (s : State) : State :=
  let a := s.twin.a.claim
  let b := s.twin.b.claim
  if a = b ∧ a ≠ 0 then
    let s := (s.flag .TWIN_EVENT .TWIN_IRQ_EN 4).emitIf (s.rbit .TWIN_CTRL 2) 0x53 0 a
    let s := standbyLost s true
    let s := { s with twin := { s.twin with accepted := none, tie := true, b := s.twin.b.fall .selftest } }
    if s.twin.a.mode == .standby then { s with twin := { s.twin with switch := .gap true } } else s
  else
    let s := { s with twin := { s.twin with tie := false } }
    let s := if 0xC0 ≤ a ∧ 0xC0 ≤ b then
        if a < b then s.setPlane false (s.twin.a.fall .selftest) else s.setPlane true (s.twin.b.fall .selftest)
      else s
    reaccept s

/-- R249: a plane that was accepted and whose claim has not been renewed at this boundary, instant g, starts a gap; one that renews again
ends it. The boundaries without an accepted claim count from the next one on. -/
def watchGap (s : State) : State :=
  if s.twin.accepted.isSome then
    (match s.twin.switch with
      | .gap _ => { s with twin := { s.twin with switch := .none } }
      | _ => s)
  else match s.actId, s.twin.switch with
    | some b, .none =>
      if (s.plane b).claim = 0 && !s.twin.tie then
        let s := startGap s b
        { s with twin := { s.twin with noclaim := 0 } }
      else s
    | _, _ => s

/-- TWIN_STATUS.NOCLAIM_CNT: consecutive boundaries without an accepted claim. -/
def countNoClaim (s : State) : State :=
  { s with twin := { s.twin with noclaim := if s.twin.accepted.isSome then 0 else min 3 (s.twin.noclaim + 1) } }

/-- The planes at the boundary into the current beat. -/
def twinBoundary (s : State) (rep : BoundaryReport) : State :=
  let s := healthWindow s
  if s.twin.safe then countNoClaim { s with twin := { s.twin with tie := false } }
  else
    let s := planeNews s false rep.uceA rep.canaryA rep.watchA rep.segBad
    let s := planeNews s true rep.uceB rep.canaryB rep.watchB rep.segBad
    if s.twin.safe then countNoClaim s
    else
      let s := match s.twin.switch with
        | .none => swapStep s
        | .gap b1 => gapStep s b1
        | .planned act => plannedStep s act
      let s := resolveClaims (renewClaim (renewClaim s false) true)
      watchGap (countNoClaim s)

end Sys2Proof.Machine
end

