-- ==== Sys2Proof/Machine/Gateway.lean ====
section
/-! DEFINITION. The gateway: CAN controllers, LIN channels, tunnels, and the path of a received frame through the filter table,
authentication and Mastiff (R260 to R292). -/

namespace Sys2Proof.Machine

/-! ### CAN controllers (R261 to R264, R272 to R276) -/

/-- R261: LEG cycles of a bit of a phase with prescaler, TSEG1 and TSEG2. -/
def bitTime (brp t1 t2 : Nat) : Nat := brp * (1 + t1 + t2)

/-- R262: is a data phase refused, of which a bit lasts at least `least` LEG cycles. -/
def dataBad (w : Word) (least : Nat) : Bool :=
  let t1 := fld w 8 5 + 1
  let t2 := fld w 16 4 + 1
  decide (bitTime (fld w 0 5 + 1) t1 t2 < least) || decide (t2 < fld w 24 4 + 1) || decide (1 + t1 + t2 < 4)

/-- R262: does controller `c` refuse its configuration. -/
def State.canBad (s : State) (c proto : Nat) : Bool :=
  let n := s.reg .GW_CAN_NBT c
  let t2 := fld n 16 7 + 1
  let nb := bitTime (fld n 0 8 + 1) (fld n 8 8 + 1) t2
  let fast := s.rbit .GW_CAN_XCVR 4 c && decide (c < 2)
  decide (nb < 80) || decide (640 < nb) || decide (t2 < fld n 23 7 + 1) ||
  (proto != 0 && dataBad (s.reg .GW_CAN_DBT c) 10) ||
  (proto == 2 && (decide (2 ≤ c) || dataBad (s.reg .GW_CAN_XBT c) (if fast then 4 else 10))) || proto == 3

/-- R262, R292: a write to GW_CAN_CTRL: EN acts at once; the other settings of the controller take effect when EN rises, unless they are
refused. -/
def canCtrlWrite (s : State) (c : Nat) (w : Word) : State :=
  let was := s.rbit .GW_CAN_CTRL 0 c
  let s := s.setReg .GW_CAN_CTRL (w &&& 0xFF7F) c
  let v := s.can c
  if !bit w 0 then s.setCan c { v with on := false, busoff := false, recovering := false, passive := false, tec := 0, recv := 0 }
  else if was then s
  else if s.canBad c (fld w 1 2) then s.setCan c { v with on := false, cfgErr := true }
  else s.setCan c { v with on := true, cfgErr := false, ctrl := s.reg .GW_CAN_CTRL c, maxAge := s.rfld .GW_CAN_TXAGE 0 16 c,
                           proto := fld w 1 2, nbt := s.reg .GW_CAN_NBT c, dbt := s.reg .GW_CAN_DBT c,
                           xbt := s.reg .GW_CAN_XBT c, fast := s.rbit .GW_CAN_XCVR 4 c && decide (c < 2),
                           busoff := false, recovering := false, passive := false, tec := 0, recv := 0 }

/-- CAN_CONTROLLER_ENABLE (R262): GW_CAN_CTRL written with EN = 1. -/
def execCanControllerEnable (c : Fin 8) (w : Word) (s : State) : Ans :=
  onBar0 s .GW_CAN_CTRL c (fun s => canCtrlWrite s c (setBit w 0 true))

/-- R255, R275, R435: the transceiver mode in force (GW_CAN_STATUS.XMODE). -/
def State.canXmode (s : State) (c : Nat) : Nat :=
  if s.bug.txSilent then (if s.bug.target = 2 && s.rbit .BUG_WAKE_CFG (12 + c) then 2 else 3)
  else if s.twin.safe then 1
  else if s.bug.power == .doze && !s.rbit .BUG_DOZE_BUS c then 2
  else s.rfld .GW_CAN_XCVR 0 2 c

/-- May controller `c` take part in traffic on its bus as a receiver. -/
def State.canHears (s : State) (c : Nat) : Bool :=
  (s.can c).on && !(s.can c).busoff && decide (s.canXmode c ≤ 1) && !bit (s.can c).ctrl 6

/-- May controller `c` send: its transmitter drives the bus, or it runs in internal loopback. -/
def State.canSends (s : State) (c : Nat) : Bool :=
  (s.can c).on && !(s.can c).busoff && !s.bug.txSilent && s.canXmode c == 0 && !bit (s.can c).ctrl 3 &&
    (bit (s.can c).ctrl 6 || (!(s.can c).txdHold && !(s.can c).hot))

/-- R275: does controller `c` run in restricted operation: it sends no flag or acknowledge, and its error counters rest (log entry 93). -/
def State.canQuiet (s : State) (c : Nat) : Bool := bit (s.can c).ctrl 3 || s.canXmode c != 0

/-- Bytes that a frame takes in a transmit memory (R272); the receive FIFO of CAN0 and CAN1 is measured in the same way. -/
def frameBytes (f : BusFrame) : Nat := 16 + (f.data.length + 15) / 16 * 16

/-- R264: has the receive FIFO of controller `c` room for a frame. -/
def State.canRoom (s : State) (c : Nat) (f : BusFrame) : Bool :=
  let q := (s.can c).rx
  if c < 2 then decide (q.foldl (fun a e => a + frameBytes e.frame) 0 + frameBytes f ≤ 16384) else decide (q.length < 64)

/-- R264: an accepted frame enters the receive FIFO of its controller. -/
def canAccept (s : State) (c : Nat) (f : BusFrame) : State :=
  if s.canRoom c f then
    (s.setCan c { s.can c with rx := (s.can c).rx ++ [{ frame := f, at_ := s.time.cnt }] }).bump (.canc c .RX_OK)
  else (s.bump (.canc c .RX_OVERRUN)).flag .GW_CAN_EVENT .GW_CAN_IRQ_EN 2 c

/-- ISO 11898-1's receive error count after a good frame: one less, or from above 127 to a value between 119 and 127 that the
standard leaves to the controller. -/
def recDown (s : State) (c : Nat) : State :=
  let v := s.can c
  if v.recv ≤ 127 then s.setCan c { v with recv := v.recv - 1 }
  else
    let x := s.fresh
    x.2.setCan c { v with recv := 119 + x.1.toNat % 9 }

/-- R274: ERR_PASSIVE is set when a controller becomes error-passive. -/
def passiveCheck (s : State) (c : Nat) : State :=
  let v := s.can c
  let p := decide (127 < v.tec) || decide (127 < v.recv)
  let s := s.setCan c { v with passive := p }
  if p && !v.passive then s.flag .GW_CAN_EVENT .GW_CAN_IRQ_EN 1 c else s

/-- Does a frame's form lie within the applied PROTO. -/
def protoTakes (proto : Nat) (f : BusFrame) : Bool :=
  match f.kind with
  | 0 => !f.fdf || decide (1 ≤ proto)
  | 1 => proto == 2
  | _ => false

/-- CAN_RECEIVE (R264): a frame of another node is valid on bus `c`. -/
def execCanReceive (c : Fin 8) (f : BusFrame) (s : State) : Ans :=
  onDie s (fun s =>
    if !(s.canHears c && protoTakes (s.can c).proto f) then s
    else
      let s := canAccept s c f
      if s.canQuiet c then s else passiveCheck (recDown s c) c)

/-- R272: the frame that controller `c` offers: the lowest identifier, or the order of arrival. -/
def State.canOffer (s : State) (c : Nat) : Option TxEnt :=
  let key := fun (f : BusFrame) => if f.ide then f.id else f.id * 2 ^ 18
  match (s.can c).tx with
  | [] => none
  | e :: t =>
    if bit (s.can c).ctrl 5 then some e
    else some (t.foldl (fun b x => if key x.frame < key b.frame then x else b) e)

/-- CAN_TX_DONE (R272): the offered frame has been sent. In internal loopback it is received again. -/
def execCanTxDone (c : Fin 8) (s : State) : Ans :=
  onDie s (fun s =>
    if !s.canSends c then s
    else match s.canOffer c with
      | none => s
      | some e =>
        let v := s.can c
        let s := s.setCan c { v with tx := v.tx.erase e, tec := v.tec - 1 }
        let s := passiveCheck (s.bump (.canc c .TX_OK)) c
        if bit v.ctrl 6 then canAccept s c e.frame else s.put (.canTx c e.frame))

/-- TX_EXPIRED (R273): frames that have waited longer than MAXAGE beats are withdrawn, but for the one that is being transmitted, by its
place in the transmit memory. -/
def execTxExpired (x : OldFrames) (s : State) : Ans :=
  onDie s (fun s =>
    let c := x.c
    let v := s.can c
    let m := v.maxAge
    let old := fun (e : TxEnt × Nat) =>
      decide (m ≠ 0) && decide (m < (s.beat - e.1.beat).toNat) && x.sending.map (·.val) != some e.2
    let l := v.tx.zipIdx 0
    (s.setCan c { v with tx := (l.filter (fun e => !old e)).map (·.1) }).bump (.canc c .TX_EXPIRED) (l.filter old).length)

/-- BUS_OFF (R274): entry to bus-off, once the transmit error count has passed 255 (ISO 11898-1, log entry 93). -/
def execBusOff (c : Fin 8) (s : State) : Ans :=
  onDie s (fun s =>
    let v := s.can c
    if !v.on || v.busoff || decide (v.tec ≤ 255) then s
    else
      let s := s.setCan c { v with busoff := true, recovering := false, offAt := s.time.cnt, tx := [] }
      let s := (s.bump (.canc c .TX_BUSOFF) v.tx.length).bump (.canc c .BUSOFF_ENTRIES)
      (s.flag .GW_CAN_EVENT .GW_CAN_IRQ_EN 0 c).emitIf (s.rbit .GW_CTRL 3) 0x60 c 255)

/-- BUS_OFF_RECOVERY_START (R274): BO_HOLD ms after entry, with BO_AUTO = 1, recovery begins. -/
def execBusOffRecoveryStart (c : Fin 8) (s : State) : Ans :=
  onDie s (fun s =>
    let v := s.can c
    if v.busoff && bit v.ctrl 4 && decide (fld v.ctrl 8 8 * 312500 ≤ (s.time.cnt - v.offAt).toNat) then
      s.setCan c { v with recovering := true }
    else s)

/-- R274: GW_CAN_CMD.RECOVER begins recovery with BO_AUTO = 0. -/
def canRecover (s : State) (c : Nat) : State :=
  let v := s.can c
  if v.busoff && !bit v.ctrl 4 then s.setCan c { v with recovering := true } else s

/-- RECOVER (R274). -/
def execRecover (c : Fin 8) (s : State) : Ans := onBar0 s .GW_CAN_CMD c (fun s => canRecover s c)

/-- BUS_OFF_RECOVERED (R274): the 128 occurrences of 11 recessive bits have passed. -/
def execBusOffRecovered (c : Fin 8) (s : State) : Ans :=
  onDie s (fun s =>
    let v := s.can c
    if !(v.busoff && v.recovering) then s
    else
      let s := s.setCan c { v with busoff := false, recovering := false, passive := false, tec := 0, recv := 0 }
      (s.flag .GW_CAN_EVENT .GW_CAN_IRQ_EN 4 c).emitIf (s.rbit .GW_CTRL 3) 0x61 c 0)

/-- R292: GW_CAN_CMD.TX_FLUSH empties the transmit memory. -/
def canFlush (s : State) (c : Nat) : State :=
  let v := s.can c
  (s.setCan c { v with tx := [] }).bump (.canc c .TX_EXPIRED) v.tx.length

/-- TX_FLUSH (R292). -/
def execTxFlush (c : Fin 8) (s : State) : Ans := onBar0 s .GW_CAN_CMD c (fun s => canFlush s c)

/-- TXD_TIMEOUT (R276): the transmit input has been dominant for 1.2 ms, or has turned recessive again. -/
def execTxdTimeout (c : Fin 8) (released : Bool) (s : State) : Ans :=
  onDie s (fun s =>
    let v := s.can c
    if !v.on then s
    else if released then s.setCan c { v with txdHold := false }
    else (s.setCan c { v with txdHold := true }).flag .GW_CAN_EVENT .GW_CAN_IRQ_EN 5 c)

/-- The counter of a kind of CAN error (R291). -/
def canErrCtr : CanErr → CancCtr
  | .stuff => .STUFF_ERR | .form => .FORM_ERR | .ack => .ACK_ERR | .bit => .BIT_ERR | .crc => .CRC_ERR

/-- R274: the error counters after an error, by the rules of ISO 11898-1 (log entry 93): a sender's TEC by 8, a receiver's REC by 1, and by
8 for each further increment. REC is held at 255. -/
def Can.erred (v : Can) (e : CanErrReport) : Can :=
  if e.sender then { v with tec := v.tec + (if e.exempt then 0 else 8) + 8 * e.more }
  else { v with recv := min 255 (v.recv + (if e.exempt then 0 else 1) + 8 * e.more) }

/-- CAN_BUS_ERROR (R274, R291): an error on the bus. In restricted operation the controller sends no error flag and its counters rest. -/
def execCanBusError (c : Fin 8) (err : CanErrReport) (s : State) : Ans :=
  onDie s (fun s =>
    let v := s.can c
    if !v.on || v.busoff then s
    else
      passiveCheck ((s.setCan c (if s.canQuiet c then v else v.erred err)).bump (.canc c (canErrCtr err.kind))) c)

/-! ### LIN channels (R277 to R279) -/

/-- R277, R292: a write to GW_LIN_CTRL: mode and rate take effect when EN rises; a commander's schedule starts at the next
boundary. -/
def linCtrlWrite (s : State) (l : Nat) (w : Word) : State :=
  let was := s.rbit .GW_LIN_CTRL 0 l
  let n := min (fld w 8 6) 32
  let s := s.setReg .GW_LIN_CTRL (setFld (w &&& 0x3F0F) 8 6 n) l
  let v := s.linc l
  if !bit w 0 then s.setLin l { v with on := false, armed := false, active := false, ent := 0, header := none }
  else if was then s
  else
    let ctrl := s.reg .GW_LIN_CTRL l
    s.setLin l { v with on := true, ctrl, baud := s.reg .GW_LIN_BAUD l, pub := [], ent := 0, header := none, active := false,
                        armed := bit w 1 && n != 0, slotEnd := s.beat + 1 }

/-- LIN_CHANNEL_ENABLE (R277): GW_LIN_CTRL written with EN = 1. -/
def execLinChannelEnable (l : Fin 4) (w : Word) (s : State) : Ans :=
  onBar0 s .GW_LIN_CTRL l (fun s => linCtrlWrite s l (setBit w 0 true))

/-- Is the channel awake and its transmitter allowed (R255, R435, R530). -/
def State.linSends (s : State) (l : Nat) : Bool :=
  (s.linc l).on && !s.twin.safe && !s.bug.txSilent && !(s.linc l).hot && (s.bug.power != .doze || s.rbit .BUG_DOZE_BUS (8 + l))

/-- Does the channel receive: in DOZE only if it is kept. -/
def State.linHears (s : State) (l : Nat) : Bool := (s.linc l).on && (s.bug.power != .doze || s.rbit .BUG_DOZE_BUS (8 + l))

/-- R279: an error of channel `l`, by its count; the first of a beat places a LIN_ERR record. -/
def linError (s : State) (l : Nat) (k : LinCtr) : State :=
  let b := k.ctorIdx - 2
  let s := (s.bump (.lin l k)).setRbit .GW_LIN_EVENT b true l
  let v := s.linc l
  if v.errBeat then s else (s.setLin l { v with errBeat := true }).emit 0x62 l b

/-- The count of an error report. -/
def linErrCtr : LinErr → Option LinCtr
  | .none => none | .checksum => some .CHECKSUM | .parity => some .PARITY | .sync => some .SYNC
  | .framing => some .FRAMING | .bitErr => some .BIT_ERR

/-- R278: the protected identifier of ISO 17987: `id` with its two parity bits. -/
def linPid (id : Nat) : Nat :=
  let b := fun k => id / 2 ^ k % 2
  id % 64 + (b 0 + b 1 + b 2 + b 4) % 2 * 64 + (b 1 + b 3 + b 4 + b 5 + 1) % 2 * 128

/-- R278: the checksum of a response of ISO 17987: the inverted sum with carry of the data bytes, and of the protected identifier where it
is enhanced (log entry 95). -/
def linSum (id : Nat) (enhanced : Bool) (data : List Byte) : Byte :=
  let add := fun (a b : Nat) => if 256 ≤ a + b then a + b - 255 else a + b
  BitVec.ofNat 8 (255 - data.foldl (fun a b => add a b.toNat) (if enhanced then linPid id else 0))

/-- R278: does channel `l` use the enhanced checksum for an identifier. -/
def Lin.enhanced (v : Lin) (id : Nat) : Bool := bit v.ctrl 3 && id != 0x3C && id != 0x3D

/-- R278: on a header for `id` the channel answers from its publish buffer, or waits for the response. `bad`: the readback of what it sends
differs (R279). -/
def linAnswer (s : State) (l id : Nat) (bad : Bool) : State :=
  let v := s.linc l
  match SMap.find? v.pub id with
  | some (some f) =>
    if !s.linSends l then s
    else
      let s := s.put (.linTx l f (linSum id (v.enhanced id) f.data))
      if bad then linError s l .BIT_ERR else s.bump (.lin l .TX_OK)
  | _ => s.setLin l { v with header := some id }

/-- LIN_HEADER (R278): a responder receives a header. -/
def execLinHeader (x : LinTurn) (id : BitVec 6) (err : LinErr) (s : State) : Ans :=
  onDie s (fun s =>
    let l := x.l
    let v := s.linc l
    if !s.linHears l || bit v.ctrl 1 then s
    else match linErrCtr err with
      | some k => linError (s.setLin l { v with header := none }) l k
      | none => linAnswer (s.setLin l { v with header := none }) l id.toNat x.bitErr)

/-- LIN_RESPONSE_RECEIVE (R278): the response to the last header, as a subscriber receives it, with its checksum byte. -/
def execLinResponseReceive (l : Fin 4) (id : BitVec 6) (resp : LinResp) (err : LinErr) (s : State) : Ans :=
  onDie s (fun s =>
    let v := s.linc l
    if !s.linHears l || v.header != some id.toNat then s
    else
      let s := s.setLin l { v with header := none }
      let bad := match linErrCtr err with
        | some k => some k
        | none => if resp.sum = linSum id.toNat (v.enhanced id.toNat) resp.data then none else some .CHECKSUM
      match bad with
      | some k => linError s l k
      | none =>
        let v := s.linc l
        if v.rx.length < 64 then
          (s.setLin l { v with rx := v.rx ++ [{ frame := { kind := 2, id := id.toNat, data := resp.data }, at_ := s.time.cnt }] }).bump (.lin l .RX_OK)
        else s)

/-- NO_RESPONSE (R279): no response has followed the last header. -/
def execNoResponse (l : Fin 4) (s : State) : Ans :=
  onDie s (fun s =>
    let v := s.linc l
    if v.header.isSome then linError (s.setLin l { v with header := none }) l .NO_RESPONSE else s)

/-- LIN_SCHEDULE_SLOT (R277): the header of the slot that begins: the schedule's first at the boundary after EN rose, then one
after the other, round and round. `x.bitErr`: the readback of what the commander sends in the slot differs, its header or its own published
response (R279); after a header that differs no response is awaited. -/
def execLinScheduleSlot (x : LinTurn) (s : State) : Ans :=
  onDie s (fun s =>
    let l := x.l
    let v := s.linc l
    if !(v.on && (v.armed || v.active)) || !passed v.slotEnd s.beat then s
    else
      let n := max (fld v.ctrl 8 6) 1
      let e := if v.active then (v.ent + 1) % n else 0
      let w := s.reg .GW_LIN_SCHED l e
      let s := s.setLin l { v with armed := false, active := true, ent := e, header := none,
                                   slotEnd := v.slotEnd + BitVec.ofNat 48 (max (fld w 16 16) 1) }
      let id := fld w 0 6
      if !s.linSends l then s
      else
        let s := s.put (.linHeader l id)
        if x.bitErr && (SMap.find? (s.linc l).pub id).isNone then linError s l .BIT_ERR else linAnswer s l id x.bitErr)

/-! ### Tunnels (R280 to R285) -/

/-- Tunnel `t`. -/
def State.tunnel (s : State) (t : Nat) : Tun := SMap.get {} s.gw.tun t
/-- Tunnel `t` replaced. -/
def State.setTun (s : State) (t : Nat) (v : Tun) : State := { s with gw := { s.gw with tun := SMap.set {} s.gw.tun t v } }

/-- R282: an ACF message: type, the bytes after type and length, and the data padded to a whole quadlet with PAD in byte 2. -/
def acfPack (type : Nat) (head data : List Byte) : List Byte :=
  let pad := (4 - data.length % 4) % 4
  let q := (2 + head.length + data.length + pad) / 4
  let head := match head with | [] => [] | b :: t => (b ||| BitVec.ofNat 8 (pad * 64)) :: t
  beBytes (type * 512 + q) 2 ++ head ++ data ++ List.replicate pad 0

/-- R282: the ACF message of a frame for tunnel `t`. -/
def State.acfMsg (s : State) (t : Nat) (f : BusFrame) (stamp : Nat) (wire : Nat) : List Byte :=
  let ctrl := s.reg .GW_TUN_CTRL t
  let mtv := bit ctrl 3
  let ts := beBytes (if mtv then stamp else 0) 8
  let b := fun (c : Bool) k => if c then 2 ^ k else 0
  match f.kind with
  | 0 =>
    let fl := b f.rtr 4 + b f.ide 3 + b f.brs 2 + b f.fdf 1 + b f.esi 0
    if bit ctrl 2 then acfPack 2 ([BitVec.ofNat 8 fl, BitVec.ofNat 8 (wire % 32)] ++ beBytes f.id 4) f.data
    else acfPack 1 ([BitVec.ofNat 8 (b mtv 5 + fl), BitVec.ofNat 8 (wire % 32)] ++ ts ++ beBytes f.id 4) f.data
  | 1 =>
    acfPack (s.rfld .GW_CTRL 8 7) ([BitVec.ofNat 8 (b mtv 5 + b f.sec 4), BitVec.ofNat 8 (wire % 32)] ++ ts ++ beBytes (f.id % 2048) 2 ++
      [BitVec.ofNat 8 f.sdt, BitVec.ofNat 8 f.vcid] ++ beBytes f.af 4 ++ beBytes f.data.length 2 ++ [0, 0]) f.data
  | _ => acfPack 3 ([BitVec.ofNat 8 (b mtv 5 + wire % 32), BitVec.ofNat 8 f.id] ++ ts) f.data

/-- R281: bytes of a container before its messages. -/
def State.tunHead (s : State) (t : Nat) : Nat := if s.rbit .GW_TUN_CTRL 1 t then 42 else 30

/-- R281: the frame of a container. The TSCF header's layout is IEEE 1722's (log entry 18). -/
def State.container (s : State) (t seq : Nat) (msgs : List (List Byte)) : List Byte :=
  let ctrl := s.reg .GW_TUN_CTRL t
  let body := msgs.flatten
  let sid := beBytes (s.reg64 .GW_TUN_LSID_LO .GW_TUN_LSID_HI t) 8
  let eth := beBytes (s.reg64 .GW_TUN_DMAC_LO .GW_TUN_DMAC_HI t) 6 ++ beBytes (s.reg64 .GW_TUN_SMAC_LO .GW_TUN_SMAC_HI) 6 ++
    beBytes 0x8100 2 ++ beBytes (fld ctrl 28 3 * 8192 + fld ctrl 16 12) 2 ++ beBytes 0x22F0 2
  if bit ctrl 1 then
    eth ++ [0x05, 0x80, BitVec.ofNat 8 seq, 0] ++ sid ++ beBytes 0 8 ++ beBytes body.length 2 ++ [0, 0] ++ body
  else eth ++ [0x82] ++ beBytes (0x8000 + body.length % 2048) 2 ++ [BitVec.ofNat 8 seq] ++ sid ++ body

/-- R283, R26: closed containers enter P23 in the order they closed, as long as the holding area has room. -/
def enterClosed : Nat → State → State
  | 0, s => s
  | fuel + 1, s =>
    match s.gw.closed with
    | [] => s
    | f :: t =>
      if s.svcRoom f then
        enterClosed fuel (enterHold { s with gw := { s.gw with closed := t } } 23 .gateway f (f.length + 4) none false none).2
      else s

/-- R283: the open container of tunnel `t` closes. -/
def closeTun (s : State) (t : Nat) : State :=
  let v := s.tunnel t
  if v.msgs.isEmpty then s
  else
    let f := s.container t v.txSeq v.msgs
    let s := (s.setTun t { v with msgs := [], txSeq := (v.txSeq + 1) % 256 }).bump (.tun t .CONT_TX)
    let s := { s with gw := { s.gw with closed := s.gw.closed ++ [f] } }
    enterClosed s.gw.closed.length s

/-- R282, R283: a frame joins the open container of tunnel `t`; was it taken. -/
def tunSend (s : State) (t : Nat) (f : BusFrame) (stamp wire : Nat) : Bool × State :=
  if f.kind = 1 ∧ 2020 < f.data.length then (false, s.bump (.tun t .XL_TOO_LONG))
  else
    let m := s.acfMsg t f stamp wire
    let lim := s.rfld .GW_TUN_LEN 0 14 t
    let base := s.tunHead t + 4
    if lim < max (base + m.length) 64 then (false, s.bump (.tun t .TUN_TOO_LONG))
    else
      let used := (s.tunnel t).msgs.foldl (fun a x => a + x.length) 0
      let s := if lim < base + used + m.length then closeTun s t else s
      let v := s.tunnel t
      let s := (s.setTun t { v with msgs := v.msgs ++ [m], first := if v.msgs.isEmpty then s.beat else v.first }).bump (.tun t .MSG_TX)
      (true, if 32 ≤ (s.tunnel t).msgs.length then closeTun s t else s)

/-- R283: is the open container of tunnel `t` due by age. -/
def State.tunDue (s : State) (t : Nat) : Bool :=
  let v := s.tunnel t
  !v.msgs.isEmpty && passed (v.first + BitVec.ofNat 48 (s.rfld .GW_TUN_CTRL 8 8 t + 1)) s.beat

/-- CONTAINER_TIMEOUT (R283): the boundary into beat n + MAX_WAIT + 1 has been reached. -/
def execContainerTimeout (t : Fin 16) (s : State) : Ans := onDie s (fun s => if s.tunDue t then closeTun s t else s)

/-- R280: the enabled tunnel whose PSID is a stream_id. -/
def State.tunOf (s : State) (sid : Nat) : Option Nat :=
  (List.range 16).find? (fun t => s.rbit .GW_TUN_CTRL 0 t && s.reg64 .GW_TUN_PSID_LO .GW_TUN_PSID_HI t == sid)

/-- R284, R285: a container in a frame handed to the tunnel receiver. -/
def tunReceive (s : State) (c : Copy) : State :=
  let b := (partsOf c.bytes).rest.drop 2
  let used := s.gw.rxBuf.foldl (fun a x => a + x.size) 0
  let tscf := byteAt b 0 == 0x05
  let sid := beNat b 4 8
  let seq := (byteAt b (if tscf then 2 else 3)).toNat
  let len := if tscf then beNat b 20 2 else beNat b 1 2 % 2048
  let body := (b.drop (if tscf then 24 else 12)).take len
  if 32768 < used + c.bytes.length then s.bump (.device .TUN_RX_FULL)
  else match s.tunOf sid with
    | none => s.bump (.device .TUN_UNKNOWN)
    | some t =>
      let v := s.tunnel t
      let s := if v.rxAny && seq != (v.rxSeq + 1) % 256 then s.bump (.tun t .TUN_SEQ_GAP) else s
      let s := (s.setTun t { v with rxSeq := seq, rxAny := true }).bump (.tun t .CONT_RX)
      { s with gw := { s.gw with rxBuf := s.gw.rxBuf ++ [{ tun := t, port := c.inPort, size := c.bytes.length, body }] } }

/-- TUNNEL_CONTAINER_RECEIVE (R284): P23's output stage hands a tunnel copy to the receiver. -/
def execTunnelContainerReceive (k : Nat) (s : State) : Ans :=
  onDie s (fun s =>
    if (s.port 23).cur != some k then s
    else match s.copyOf k with
      | none => endTx s 23
      | some c =>
        if !tunnelCopy c.bytes then s
        else
          let q := queueNo 23 c.tc
          let s := ((s.bump (.port 23 .TX_FRAMES)).bump (.port 23 .TX_BYTES) c.len)
          let s := ((s.bump (.queue q .TX_FRAMES)).bump (.queue q .TX_BYTES) c.len)
          tunReceive (doneCopy (endTx s 23) c) c)

/-- What the receiver takes from the front of a container (R285). -/
inductive AcfNext where
  | frame (f : BusFrame) (wire : Nat) (rest : List Byte)
  | skip (rest : List Byte)
  | malformed
  | done
deriving DecidableEq, Repr

/-- R282, R285: the next ACF message of a container's data. -/
def State.acfNext (s : State) (b : List Byte) : AcfNext :=
  if b.isEmpty then .done
  else
    let type := (byteAt b 0).toNat / 2
    let n := 4 * (beNat b 0 2 % 512)
    if n = 0 ∨ b.length < n then .malformed
    else
      let m := b.take n
      let rest := b.drop n
      let x := byteAt b 2
      let y := (byteAt b 3).toNat
      let pad := x.toNat / 64
      let data := fun h => (m.drop h).take (n - h - pad)
      let can := fun h => BusFrame.mk 0 (x.getLsbD 3) (x.getLsbD 1) (x.getLsbD 2) (x.getLsbD 0) (x.getLsbD 4) false
        (beNat b (h - 4) 4 % 2 ^ 29) 0 0 0 (data h)
      if type = 1 ∧ 16 ≤ n then .frame (can 16) (y % 32) rest
      else if type = 2 ∧ 8 ≤ n then .frame (can 8) (y % 32) rest
      else if type = 3 ∧ 12 ≤ n then .frame { kind := 2, id := y % 64, data := data 12 } (x.toNat % 32) rest
      else if type = s.rfld .GW_CTRL 8 7 ∧ 24 ≤ n then
        .frame { kind := 1, sec := x.getLsbD 4, id := beNat b 12 2 % 2048, sdt := (byteAt b 14).toNat, vcid := (byteAt b 15).toNat,
                 af := beNat b 16 4, data := (m.drop 24).take (beNat b 20 2 % 4096) } (y % 32) rest
      else if type = 1 ∨ type = 2 ∨ type = 3 ∨ type = s.rfld .GW_CTRL 8 7 then .malformed
      else .skip rest

/-- R285: the next frame of the containers for the tunnels of an engine (K5: 0 to 7, K6: 8 to 15), with tunnel, port and bus
identifier; messages of other types are skipped and malformed containers end. -/
def nextAcf (hi : Bool) : Nat → State → Option (BusFrame × Nat × Nat × Nat) × State
  | 0, s => (none, s)
  | fuel + 1, s =>
    match s.gw.rxBuf.findIdx? (fun c => decide (8 ≤ c.tun) == hi) with
    | none => (none, s)
    | some i => match s.gw.rxBuf[i]? with
      | none => (none, s)
      | some c =>
        let put (s : State) (b : List Byte) : State :=
          { s with gw := { s.gw with rxBuf := if b.isEmpty then s.gw.rxBuf.eraseIdx i else s.gw.rxBuf.set i { c with body := b } } }
        match s.acfNext c.body with
        | .frame f w rest => (some (f, c.tun, c.port, w), (put s rest).bump (.tun c.tun .MSG_RX))
        | .skip rest => nextAcf hi fuel ((put s rest).bump (.tun c.tun .TUN_MSG_SKIP))
        | .malformed => nextAcf hi fuel ((put s []).bump (.tun c.tun .TUN_MALFORMED))
        | .done => nextAcf hi fuel (put s [])

/-! ### Queries of the filter table and of Mastiff (R268, R289, R253) -/

/-- R253, R289: the plane that answers the gateway: the accepted one, else an eligible standby. -/
def State.answering (s : State) : Option Bool :=
  match s.twin.accepted with
  | some b => some b
  | none => if s.eligibleStandby false then some false else if s.eligibleStandby true then some true else none

/-- R268: does an entry match a frame of source bit `b` with ACF bus identifier `wire`. -/
def fltMatches (e : List Word) (f : BusFrame) (b wire : Nat) : Bool :=
  bit (wd e 1) 30 && maskBit (wfld e 2 0 28) b && (wfld e 0 30 2 == f.kind) &&
  maskEq f.id (wfld e 0 0 29) (wfld e 1 0 29) && (!bit (wd e 1) 29 || (bit (wd e 0) 29 == f.ide)) &&
  (decide (b < 12) || !bit (wd e 4) 10 || wfld e 4 5 5 == wire)

/-- R268: the lowest-indexed matching entry of a plane. -/
def Plane.fltFind (p : Plane) (f : BusFrame) (b wire : Nat) : Option (Nat × List Word) :=
  (p.ents .filter).find? (fun e => fltMatches e.2 f b wire)

/-- R289, R306: words 5 to 8 of an entry, as the result of an accepted query: into the answering plane and the mirror. -/
def fltStore (s : State) (i : Nat) (ws : List Word) : State :=
  match s.answering with
  | none => s
  | some b =>
    let e := (s.plane b).rd .filter i
    let e := wset (wset (wset (wset e 5 (wd ws 0)) 6 (wd ws 1)) 7 (wd ws 2)) 8 (wd ws 3)
    let s := s.setPlane b ((s.plane b).wr (Space.filter.key i) e)
    let s := if s.actId = some b then s.mark (Space.filter.key i) true 44 false else s
    { s with twin := { s.twin with fresh := SMap.set [] s.twin.fresh i [wd ws 0 &&& 0x10, wd ws 1, wd ws 2, wd ws 3] } }

/-- Counter index and record source of a CAN or LIN denial (R154, R164): source bit `b`, ingress port of a tunnel frame. -/
def denyIdx (b port : Nat) : Nat × Nat :=
  if b < 8 then (b, 32 + b) else if b < 12 then (b, 32 + b) else (12 + port, port)

/-- R154: the source zone of a frame. -/
def State.busSrcZone (s : State) (b port : Nat) : Nat := if b < 12 then s.busZone b else s.rfld .FW_PORT_ZONE 0 4 port

/-- R154: the destination zone of destination bit `d`. -/
def State.busDstZone (s : State) (d : Nat) : Nat := if d < 12 then s.busZone d else s.rfld .FW_SVC_ZONE 0 4

/-- R270 step 5: the destinations that Mastiff allows. -/
def busAllowed (s : State) (f : BusFrame) (verified : Bool) (b port : Nat) (mask : Nat) : Nat × State :=
  (maskList mask 28).foldl (fun (a, s) d =>
    let x := busQuery s (s.answering.map s.plane) f verified (s.busSrcZone b port) (s.busDstZone d) (denyIdx b port).1 (denyIdx b port).2
    (if x.1 then maskSet a d else a, x.2)) (0, s)

/-! ### Writing a frame to its destinations (R270 step 7) -/

/-- R260, R272: a frame is written to the transmit memory of bus `c`; was it taken. A frame of a form that the controller's PROTO does not
cover is not (log entry 94). -/
def canWrite (s : State) (c : Nat) (f : BusFrame) : Bool × State :=
  let v := s.can c
  let lim := if c < 2 then 16384 else 4096
  if !protoTakes v.proto f || (f.kind == 1 && decide (2 ≤ c)) then (false, s)
  else if v.busoff then (false, s.bump (.canc c .TX_BUSOFF))
  else if 32 ≤ v.tx.length ∨ lim < v.tx.foldl (fun a e => a + frameBytes e.frame) 0 + frameBytes f then
    (false, (s.bump (.canc c .TX_FULL)).flag .GW_CAN_EVENT .GW_CAN_IRQ_EN 3 c)
  else (true, s.setCan c { v with tx := v.tx ++ [{ frame := f, beat := s.beat }] })

/-- R278: a frame is written into the publish buffer of its identifier. -/
def linWrite (s : State) (l : Nat) (f : BusFrame) : Bool × State :=
  let v := s.linc l
  if !v.on then (false, s) else (true, s.setLin l { v with pub := SMap.put v.pub (f.id % 64) (some f) })

/-- A frame to one destination bit. -/
def busSend (s : State) (d : Nat) (f : BusFrame) (stamp wire : Nat) : Bool × State :=
  if s.twin.safe then (false, s)
  else if d < 8 then canWrite s d f else if d < 12 then linWrite s (d - 8) f
  else if s.rbit .GW_TUN_CTRL 0 (d - 12) then tunSend s (d - 12) f stamp wire else (false, s)

/-- A frame to every destination of a mask: the mask of those that took it. -/
def busSendAll (s : State) (mask : Nat) (f : BusFrame) (stamp wire : Nat) : Nat × State :=
  (maskList mask 28).foldl (fun (a, s) d =>
    let x := busSend s d f stamp wire
    (if x.1 then maskSet a d else a, x.2)) (0, s)

/-! ### Authenticated frames (R286 to R288) -/

/-- FV_LEN and MAC_LEN of an entry. -/
def fltLens (e : List Word) : Nat × Nat := (wfld e 4 28 3 + 1, wfld e 5 0 4 + 1)

/-- R286: the message that the code covers. -/
def authMsg (f : BusFrame) (fv : Nat) (data : List Byte) : List Byte :=
  beBytes (f.id % 2 ^ 29 + (if f.ide then 2 ^ 29 else 0) + f.kind * 2 ^ 30) 4 ++ beBytes fv 8 ++ data

/-- R385, R389: does the core of engine `e`'s CMAC chain serve it. -/
def State.cmacCore (s : State) (e : Nat) : Bool := s.coreOk (e % 4)

/-- R395, R401: the CMAC key of slot `k` for engine `e`, if it can serve. -/
def cmacKey (s : State) (e k : Nat) (rep : CipherReport) : Option (List Byte) × State :=
  let x := useSlot s k useCmac rep
  if (s.slot k).attr.engine && !(s.slot k).attr.klen && s.cmacCore e then x else (none, x.2)

/-- R308, R388, R395: the CMAC of a message under slot `k` in the chain of engine `e`: none without a usable key or core, and with a lane
mismatch. -/
def cmacTag (s : State) (e k : Nat) (rep : CipherReport) (msg : List Byte) : Option (List Byte) × State :=
  match cmacKey s e k rep with
  | (none, s) => (none, s)
  | (some key, s) => if rep.mismatch then (none, laneMismatch s (e % 4) 3) else (some (cmac key msg), s)

/-- R287: the freshness value that a received trailer stands for, or why it is refused. -/
def freshValue (synced strict : Bool) (n last low : Nat) : GwsrcCtr ⊕ Nat :=
  if !synced then (if n = 64 ∧ !strict then .inr low else .inl .AUTH_UNSYNC)
  else if n = 64 then (if low ≤ last ∨ 2 ^ 63 < low - last then .inl .AUTH_FRESH else .inr low)
  else
    let c := last / 2 ^ n * 2 ^ n + low
    let c := if c ≤ last then c + 2 ^ n else c
    if 2 ^ (n - 1) < c - last ∨ 2 ^ 64 ≤ c then .inl .AUTH_FRESH else .inr c

/-- R287: verification of a frame against entry `i`: the count of a refusal, or the state with LAST_FV and SYNCED written. -/
def authVerify (s : State) (eng : Nat) (f : BusFrame) (i : Nat) (e : List Word) (rep : CipherReport) :
    Option GwsrcCtr × State :=
  let n := fltLens e
  if f.data.length < n.1 + n.2 then (some .AUTH_LEN, s)
  else
    let body := f.data.take (f.data.length - (n.1 + n.2))
    let tr := f.data.drop (f.data.length - (n.1 + n.2))
    match freshValue (bit (wd e 5) 4) (bit (wd e 4) 14) (8 * n.1) (wnum e 7 2) (beNat tr 0 n.1) with
    | .inl c => (some c, s)
    | .inr fv =>
      match cmacTag s eng (wfld e 4 16 6) rep (authMsg f fv body) with
      | (none, s) => (some .AUTH_KEY, s)
      | (some tag, s) =>
        if tag.take n.2 = tr.drop n.1 then
          (none, fltStore s i [setFld (wd e 5) 4 1 1, wd e 6, BitVec.ofNat 32 fv, BitVec.ofNat 32 (fv / 2 ^ 32)])
        else (some .AUTH_FAIL, s)

/-- R288: the next valid data length of a frame's kind. -/
def validLen (f : BusFrame) (n : Nat) : Option Nat :=
  match f.kind with
  | 0 => if n ≤ 8 then some n else if f.fdf then [12, 16, 20, 24, 32, 48, 64].find? (fun m => decide (n ≤ m)) else none
  | 1 => if n ≤ 2048 then some (max n 1) else none
  | _ => if n ≤ 8 then some n else none

/-- R288: STRIP removes the trailer; the data is then padded to a valid length. -/
def authStrip (f : BusFrame) (e : List Word) : BusFrame :=
  let n := fltLens e
  let d := f.data.take (f.data.length - (n.1 + n.2))
  { f with data := d ++ List.replicate ((validLen f d.length).getD d.length - d.length) 0 }

/-- R288: GEN appends a trailer with the next freshness value: the count of a refusal, or the frame. Between the renewal's increment
and the boundary after it, frames use the previous value of counter 31. -/
def authGen (s : State) (eng : Nat) (f : BusFrame) (i : Nat) (e : List Word) (rep : CipherReport) : (GwsrcCtr ⊕ BusFrame) × State :=
  let n := fltLens e
  let tx := (wd e 6).toNat
  match validLen f (f.data.length + n.1 + n.2) with
  | none => (.inl .AUTH_LEN, s)
  | some m =>
    if tx = 0xFFFFFFFF ∧ s.gw.fvSpent.contains i then (.inl .AUTH_FV, s)
    else
      let fv := ((s.reg .KEEP_CTR 31).toNat - if s.gw.renewed then 1 else 0) * 2 ^ 32 + tx
      let data := f.data ++ List.replicate (m - (f.data.length + n.1 + n.2)) 0
      match cmacTag s eng (wfld e 4 22 6) rep (authMsg f fv data) with
      | (none, s) => (.inl .AUTH_KEY, s)
      | (some tag, s) =>
        let s := if tx = 0xFFFFFFFF then { s with gw := { s.gw with fvSpent := i :: s.gw.fvSpent } }
          else fltStore s i [wd e 5, wd e 6 + 1, wd e 7, wd e 8]
        (.inr { f with data := data ++ beBytes fv n.1 ++ tag.take n.2 }, s)

end Sys2Proof.Machine
end

