-- ==== Sys2Proof/Machine/Resets.lean ====
section
/-! DEFINITION. What the reset levels leave of the state (R504, R510). -/

namespace Sys2Proof.Machine

/-- R504, R404, R465: what lies in the F-die and survives every level: the image areas, the settings copies and the counter mirror. -/
def Update.flash (u : Update) : Update :=
  { main := u.main, prior := u.prior, stage := u.stage, setA := u.setA, setB := u.setB, mirror0 := u.mirror0,
    mirror1 := u.mirror1, half := u.half, wcnt := u.wcnt, vrec := u.vrec }

/-- R504: the D-die reset: all D-die logic and memories return to their reset state. The keep domain, the always-on part of CLK
and the INH outputs survive, and so does what lies in the F-die, in the A-die's transmitters or on pins. -/
def dieReset (s : State) : State :=
  let g := State.reset
  { g with
    pending := s.pending, part := s.part, dOn := s.dOn, out := s.out, free := s.free,
    regs := SMap.keep (fun a => Reg.keptAddr a && a != 0x10100) s.regs,
    cry := { storeA := s.cry.storeA, storeB := s.cry.storeB },
    upd := s.upd.flash,
    hif := { perst := s.hif.perst },
    gw := { can := (List.range 8).foldl (fun m c => SMap.set {} m c { hot := (s.can c).hot }) [],
            lin := (List.range 4).foldl (fun m l => SMap.set {} m l { hot := (s.linc l).hot }) [] },
    clk := { resetN := s.clk.resetN, pcieRef := s.clk.pcieRef },
    bug := { s.bug with seq := .run, aborting := false, reqNext := none, wakeNext := none, holdHost := false, tc10Wait := 0,
                        tc10Req := [], dozed := 0, txSilent := false } }

/-- R510: CLK_RST_CAUSE records the source of the reset. -/
def resetCause (s : State) (cause : Nat) : State := s.setReg .CLK_RST_CAUSE (BitVec.ofNat 32 cause)

/-- R436: the INH outputs take the levels of BUG_INH_CFG for a state: 0 = ACTIVE, 1 = DOZE, 2 = LISTEN, 3 = SLEEP. An output that
changes is no longer held off by an earlier fault. -/
def inhSet (s : State) (k : Nat) : State :=
  let lv := (if s.rbit .BUG_INH_CFG k then 1 else 0) + (if s.rbit .BUG_INH_CFG (8 + k) then 2 else 0)
  { s with bug := { s.bug with inh := lv, inhFault := s.bug.inhFault &&& (3 - (s.bug.inh ^^^ lv) % 4) } }

/-- R256, R504, R506: the D-die starts afresh: start-up phase 1, FAULT_N asserted until READY. A reset in ACTIVE leaves the INH
outputs as they are. -/
def dieStart (s : State) (cause : Nat) : State :=
  let same := s.bug.power == .active
  let s := resetCause (dieReset s) cause
  let s := { s with dOn := true, bug := { s.bug with power := .active, faultN := true, woken := false, timerOn := false } }
  let s := pcieClock (s.setRbit .KEEP_HDR 24 false)
  if same then s else inhSet s 0

/-- R452 step 3: the ports of BUG_WAKE_PORTS with a valid record are enabled with its speed and role, their clocks running, and
those in TC10 TX send their wake-up pulse. -/
def wakePorts (s : State) : State :=
  (List.range 12).foldl (fun s n =>
    if s.rbit .BUG_WAKE_PORTS n && s.hasPort n && s.coefValid n then
      let s := s.setRbit .CLK_GATE (portClk n) false
      let s := s.setRbit .CLK_DOMAIN_STATUS (portClk n) true
      let w := setFld (setFld (setBit (s.reg .PORT_CTRL n) 0 true) 1 3 (fld (s.coef n 0) 0 3)) 4 2 (fld (s.coef n 0) 3 1)
      let s := portCtrlWrite s n w
      if s.rbit .BUG_TC10_CFG (16 + n) then s.put (.tc10Wake n) else s
    else s) s

/-- R452, R434: the D-die starts as after a wake. -/
def wakeStart (s : State) (cause : Nat) : State := wakePorts (dieStart s cause)

/-- The D-die loses its supply: nothing of it is left (R432, R447). -/
def dieOff (s : State) (p : Power) : State :=
  let s := dieReset s
  { s with dOn := false, bug := { s.bug with power := p } }

end Sys2Proof.Machine
end

