-- ==== Sys2Proof/Machine/Bugle.lean ====
section
/-! DEFINITION. Bugle: power states, the sleep sequence, DOZE, wake sources, supplies (R429 to R457, R530). -/

namespace Sys2Proof.Machine

/-! ### Events for the Bugle engines and aborts (R446, R455, R457) -/

/-- R455: a BUGLE event goes to both engines. -/
def bugleEvent (s : State) (kind : Nat) (target : Nat := 0) (cause : Nat := 0) (index : Nat := 0) (w1 : Word := 0) : State :=
  let it : Item := { bytes := leBytes (kind + target * 16 + cause * 256 + index * 2 ^ 12) 4 ++ leBytes w1.toNat 4 }
  [12, 13].foldl (fun s e => s.setEngine e { s.engine e with bugle := (s.engine e).bugle ++ [it] }) s

/-- Bit `k` of BUG_EVENT, which the D-die holds. -/
def bugFlag (s : State) (k : Nat) : State := if s.dOn then s.flag .BUG_EVENT .BUG_IRQ_EN k else s

/-- R446: a sleep in PREPARE or STOPPED is aborted; the sequencer returns at the next boundary. -/
def bugAbort (s : State) (cause index : Nat) : State :=
  if (s.bug.seq == .prepare || s.bug.seq == .stopped) && !s.bug.aborting then
    let s := { s with bug := { s.bug with aborting := true } }
    let w := s.reg .BUG_ABORT
    let n := min (fld w 16 16 + 1) 65535
    let s := s.setReg .BUG_ABORT (BitVec.ofNat 32 (cause + index * 16 + n * 65536))
    let s := (bugFlag s 1).emitIf (s.rbit .BUG_SLEEP_CFG 1) 0xC0 0 (cause + index * 16)
    bugleEvent s 3 s.bug.target cause index
  else s

/-! ### Requests (R443, R446, R450, R451, R456) -/

/-- R443, R450: a request, judged at the next boundary. TARGET 0 names no state. -/
def sleepReq (s : State) (target : Nat) (force : Bool) : State :=
  if target = 0 then s else { s with bug := { s.bug with reqNext := some (target, force) } }

/-- R451: DOZE is to be left at the next boundary; the first source is reported. -/
def dozeLeaveReq (s : State) (cause index : Nat) : State :=
  if s.bug.power == .doze && s.bug.seq == .run && s.bug.wakeNext.isNone then
    { s with bug := { s.bug with wakeNext := some (cause, index) } }
  else s

/-- A write to BUG_SLEEP_CMD (R443 to R446, R451, R457). -/
def sleepCmdWrite (s : State) (w : Word) : State :=
  let s := if bit w 6 then { s with bug := { s.bug with holdHost := false } } else s
  let s := if bit w 5 then bugAbort s 9 0 else s
  let s := if bit w 7 then dozeLeaveReq s 9 0 else s
  if bit w 4 then sleepReq s (fld w 0 2) (bit w 8) else s

/-- SLEEP_REQUEST (R443): REQUEST without FORCE. -/
def execSleepRequest (w : Word) (s : State) : Ans :=
  onBar0 s .BUG_SLEEP_CMD 0 (fun s => sleepCmdWrite s (setBit (setBit w 4 true) 8 false))

/-- FORCED_SLEEP_REQUEST (R457): REQUEST with FORCE. -/
def execForcedSleepRequest (w : Word) (s : State) : Ans :=
  onBar0 s .BUG_SLEEP_CMD 0 (fun s => sleepCmdWrite s (setBit (setBit w 4 true) 8 true))

/-- DOZE_REQUEST (R450): REQUEST with TARGET = DOZE. -/
def execDozeRequest (w : Word) (s : State) : Ans :=
  onBar0 s .BUG_SLEEP_CMD 0 (fun s => sleepCmdWrite s (setFld (setBit w 4 true) 0 2 1))

/-- SLEEP_CANCEL (R446): CANCEL by the host. -/
def execSleepCancel (s : State) : Ans :=
  onBar0 s .BUG_SLEEP_CMD 0 (fun s => bugAbort s 9 0)

/-- SLEEP_ACK (R444): the host releases its hold. -/
def execSleepAck (s : State) : Ans :=
  onBar0 s .BUG_SLEEP_CMD 0 (fun s => { s with bug := { s.bug with holdHost := false } })

/-- DOZE_WAKE (R451): WAKE by the host. -/
def execDozeWake (s : State) : Ans :=
  onBar0 s .BUG_SLEEP_CMD 0 (fun s => dozeLeaveReq s 9 0)

/-- R456: a request by a Bugle engine with SYS BUGLE; one that the state or the safe state forbids is ignored and counted. -/
def bugleRequest (s : State) (e : Nat) (w : Word) : State :=
  let no := s.bump (.klp e .BUGLE_IGNORED)
  let running := s.bug.seq == .prepare || s.bug.seq == .stopped
  let port := fld w 8 5
  let portOk := decide (port < 16) && s.hasPort port && !s.twin.safe
  match fld w 0 4 with
  | 1 => if fld w 4 2 = 0 then no else sleepReq s (fld w 4 2) false
  | 2 => if running then bugAbort s 10 e else no
  | 3 => if s.bug.power == .doze && s.bug.seq == .run then dozeLeaveReq s 10 e else no
  | 4 =>
    if !portOk then no
    else match SMap.find? s.bug.tc10Req port with
      | some b =>
        let s := { s with bug := { s.bug with tc10Req := SMap.erase s.bug.tc10Req port } }
        if (s.beat - b).toNat ≤ s.rfld .BUG_SLEEP_CFG 16 8 * 125 then s.put (.tc10Ack port) else s.put (.tc10Sleep port)
      | none => s.put (.tc10Sleep port)
  | 5 => if portOk then s.put (.tc10Wake port) else no
  | 6 => if s.linSends (fld w 8 2) then s.put (.linWakePulse (fld w 8 2)) else no
  | 7 =>
    if s.twin.safe || !(s.bug.power == .active || s.bug.power == .doze) then no
    else
      let m := fld w 16 2
      let lv := (s.bug.inh &&& (3 - m)) ||| (fld w 18 2 &&& m)
      { s with bug := { s.bug with inh := lv, inhFault := s.bug.inhFault &&& (3 - (s.bug.inh ^^^ lv) % 4) } }
  | _ => no

/-! ### The sleep sequence (R443 to R448) -/

/-- R443: is an engine of Bugle FAULTED or stopped. -/
def State.bugleDown (s : State) : Bool :=
  [12, 13].any (fun e => (s.engine e).faulted || !s.rbit .KLP_ENG_CTRL 0 e)

/-- R443, R444: PREPARE begins. A forced sleep asks no partner (R457); ports that the part lacks count as zero (R4). -/
def prepare (s : State) (target : Nat) (force : Bool) : State :=
  let b := s.bug
  let s := { s with bug := { b with
    seq := .prepare, target, aborting := false, prepAt := s.beat,
    holdHost := s.rbit .BUG_SLEEP_CFG 0, tc10Wait := if force then 0 else s.rfld .BUG_TC10_CFG 16 16 &&& s.portMask } }
  bugleEvent (bugFlag s 0) 1 target

/-- R495, R497: Bugle stops the clock of a domain. -/
def clkOff (s : State) (k : Nat) : State := (s.setRbit .CLK_GATE k true).setRbit .CLK_DOMAIN_STATUS k false
/-- R497: Bugle restarts the clock of a domain. -/
def clkOn (s : State) (k : Nat) : State := (s.setRbit .CLK_GATE k false).setRbit .CLK_DOMAIN_STATUS k true

/-- R497: is the clock of port `n`'s domain without users. -/
def State.portClkIdle (s : State) (n : Nat) : Bool :=
  (List.range 22).all (fun m => portClk m != portClk n || !s.rbit .PORT_CTRL 0 m)

/-- R450: a port outside PORTS is disabled. -/
def dozePort (s : State) (n : Nat) : State :=
  if s.rbit .BUG_DOZE_CFG n || !s.rbit .PORT_CTRL 0 n then s
  else
    let s := if n < 16 then s.put (.tc10Sleep n) else s
    let s := portCtrlWrite s n (setBit (s.reg .PORT_CTRL n) 0 false)
    let s := { s with bug := { s.bug with dozed := maskSet s.bug.dozed n } }
    if s.portClkIdle n then clkOff s (portClk n) else s

/-- R450: the standby plane is switched off; a plane that is FAILED stays so (R231). -/
def standbyOff (s : State) : State :=
  if s.rbit .BUG_DOZE_CFG 24 then s
  else match s.actId with
    | none => s
    | some b =>
      let s := standbyLost s (!b)
      let s := if (s.plane (!b)).mode = .failed then s else s.setPlane (!b) ((s.plane (!b)).fall .selftest)
      { s with bug := { s.bug with dozed := maskSet s.bug.dozed 36 } }

/-- R436: the INH outputs follow the power state, unless the safe state holds them. -/
def inhFollow (s : State) (k : Nat) : State := if s.twin.safe then s else inhSet s k

/-- R450: ACTIVE becomes DOZE. -/
def dozeEnter (s : State) : State :=
  let s := standbyOff ((List.range 22).foldl dozePort s)
  inhFollow { s with bug := { s.bug with power := .doze } } 1

/-- R451: DOZE becomes ACTIVE. -/
def dozeLeave (s : State) (cause index : Nat) : State :=
  let d := s.bug.dozed
  let s := { s with bug := { s.bug with power := .active, dozed := 0, wakeNext := none } }
  let s := (maskList d 22).foldl (fun s n =>
    portCtrlWrite (clkOn s (portClk n)) n (setBit (s.reg .PORT_CTRL n) 0 true)) s
  let s := s.setRfld .BUG_PWR_STATUS 16 4 cause
  inhFollow (bugleEvent s 5 0 cause index) 0

/-- R446: an aborted sequence returns; ports that were put to sleep are woken by a wake-up request. -/
def abortReturn (s : State) : State :=
  let b := s.bug
  let ports := (List.range 16).filter (fun n => (s.port n).started &&
    (b.seq == .stopped || (s.rbit .BUG_TC10_CFG (16 + n) && !maskBit b.tc10Wait n)))
  let s := { s with bug := { b with seq := .run, aborting := false, txSilent := false, tc10Wait := 0, holdHost := false } }
  if s.twin.safe then s else s.puts (ports.map Output.tc10Wake)

/-- R443, R450: the request of the beat just ended is judged at the boundary. -/
def judgeSleep (s : State) : State :=
  match s.bug.reqNext with
  | none => s
  | some (target, force) =>
    let s := { s with bug := { s.bug with reqNext := none } }
    if s.bug.seq != .run || (!force && s.bugleDown) || !(s.bug.power == .active || s.bug.power == .doze) then bugFlag s 2
    else if target = 1 then (if s.bug.power == .active then dozeEnter s else s)
    else prepare s target force

/-- The power sequencer at a beat boundary (R443, R446, R450, R451). -/
def bugBoundary (s : State) : State :=
  let s := if s.bug.aborting then abortReturn s else s
  let s := match s.bug.wakeNext with | none => s | some (c, i) => dozeLeave s c i
  judgeSleep s

/-- R444: the holds of PREPARE: bit 0 flash, 1 host, 2 TC10. -/
def State.holds (s : State) : Nat :=
  if s.bug.seq != .prepare then 0
  else
    (if !s.cry.upd.isEmpty || s.upd.act == 2 || s.upd.act == 3 then 1 else 0) + (if s.bug.holdHost then 2 else 0) +
    (if s.bug.tc10Wait ≠ 0 ∧ (s.beat - s.bug.prepAt).toNat < s.rfld .BUG_SLEEP_CFG 16 8 * 125 then 4 else 0)

/-- R445: the stop. The interfaces take the target state's settings: CAN by its transceiver mode, the rest falls silent. -/
def stopSleep (s : State) : State :=
  bugleEvent { s with bug := { s.bug with seq := .stopped, txSilent := true, swErr := [] } } 2 s.bug.target

/-- SLEEP_STOP (R444, R445): at a boundary of PREPARE no hold remains. -/
def execSleepStop (s : State) : Ans :=
  onDie s (fun s =>
    if s.bug.seq == .prepare && !s.bug.aborting && s.bug.prepAt != s.beat && s.holds == 0 then stopSleep s else s)

/-- PREP_TIMEOUT (R444): PREPARE has lasted PREP_TMO ms. -/
def execPrepTimeout (s : State) : Ans :=
  onDie s (fun s =>
    if s.bug.seq == .prepare && !s.bug.aborting && decide (s.rfld .BUG_SLEEP_CFG 4 12 * 125 ≤ (s.beat - s.bug.prepAt).toNat) then
      stopSleep (bugFlag s 3)
    else s)

/-- R445, R446: the A-die inspects the wake latch at a KEEP edge and commits, or the sleep is aborted. -/
def commitSleep (s : State) : State :=
  let l := s.reg .BUG_WAKE_LATCH
  if l ≠ 0 then bugAbort s (fld l 0 4) (fld l 4 5)
  else
    { s with bug := { s.bug with
      seq := .committed, woken := false, faultN := false,
      timerOn := s.rbit .BUG_WAKE_CFG 24 && s.rfld .BUG_WAKE_TIMER 0 24 != 0 } }

/-- SLEEP_COMMIT (R445). -/
def execSleepCommit (s : State) : Ans :=
  onDie s (fun s => if s.bug.seq == .stopped && !s.bug.aborting then commitSleep s else s)

/-- R447 step 1: queued copies are dropped; host-originated frames complete with LINK_DOWN_DROPPED. -/
def sleepFlush (s : State) : State :=
  let l : Loss := { ctr := some .SLEEP_FLUSH, code := 0x62A, down := true, pic := some 42 }
  let s := (List.range 24).foldl (fun s n => (flushQueues s n l).2) s
  let s := s.held.foldl (fun s h => if h.admitted then s else dropFrame s h 1 0) s
  let s := { s with held := [] }
  (List.range 32).foldl (fun s r => s.setRing r { s.ring r with fetched := (s.ring r).fetched.map (fun d =>
    if d.state = 3 then d else { d with state := 3, status := 1, detail := 0 }) }) s

/-- D_DIE_DOWN (R447): after the commit the D-die goes down. -/
def execDDieDown (s : State) : Ans :=
  onDie s (fun s =>
    if s.bug.seq != .committed then s
    else
      let t := s.bug.target
      let s := inhSet (writeEvents (completions (sleepFlush s))) t
      dieOff s (if t = 2 then .listen else .sleep))

/-! ### TC10 handshakes (R440, R444, R456) -/

/-- TC10_SLEEP_ACK (R444): a partner acknowledges the sleep request of its port. -/
def execTc10SleepAck (n : Fin 16) (s : State) : Ans :=
  onDie s (fun s => { s with bug := { s.bug with tc10Wait := maskClr s.bug.tc10Wait n } })

/-- TC10_SLEEP_REQUEST_RECEIVE (R456): a partner asks for sleep; the engines may answer within TC10_TMO. -/
def execTc10SleepRequestReceive (n : Fin 16) (s : State) : Ans :=
  onDie s (fun s =>
    if (s.port n).started then
      bugleEvent { s with bug := { s.bug with tc10Req := SMap.put s.bug.tc10Req n s.beat } } 7 0 0 n.val
    else s)

/-! ### Wakes (R437 to R442, R448) -/

/-- R442: the wake latch takes a wake. -/
def wakeLatch (s : State) (cause index : Nat) (after : Bool) : State :=
  let w := s.reg .BUG_WAKE_LATCH
  let w := if fld w 0 4 = 0 then setBit (setFld (setFld w 0 4 cause) 4 5 index) 9 after else w
  s.setReg .BUG_WAKE_LATCH (setBit w (16 + cause) true)

/-- R436: outputs with ON_WAKE switch on when a wake is latched. -/
def inhWake (s : State) : State :=
  let m := (if s.rbit .BUG_INH_CFG 4 then 1 else 0) + (if s.rbit .BUG_INH_CFG 12 then 2 else 0)
  let lv := s.bug.inh ||| m
  { s with bug := { s.bug with inh := lv, inhFault := s.bug.inhFault &&& (3 - (s.bug.inh ^^^ lv) % 4) } }

/-- R442, R446, R448, R451: a wake whose source is armed. -/
def wake (s : State) (cause index : Nat) : State :=
  match s.bug.seq with
  | .prepare => bugAbort (wakeLatch s cause index false) cause index
  | .stopped => bugAbort (wakeLatch s cause index false) cause index
  | .committed => inhWake (wakeLatch { s with bug := { s.bug with woken := true } } cause index true)
  | .run => match s.bug.power with
    | .off | .active => s
    | .doze => dozeLeaveReq s cause index
    | .brownout => inhWake (wakeLatch { s with bug := { s.bug with woken := true } } cause index false)
    | .sleep | .listen => inhWake (wakeLatch { s with bug := { s.bug with woken := true } } cause index true)

/-- The power state whose wake detectors are armed (R429, R445): 1 = DOZE, 2 = LISTEN, 3 = SLEEP, 0 = none. -/
def State.armed (s : State) : Nat :=
  match s.bug.seq with
  | .prepare => 0
  | .stopped | .committed => s.bug.target
  | .run => match s.bug.power with
    | .off | .active => 0
    | .doze => 1
    | .listen => 2
    | .sleep | .brownout => 3

/-- R435: is bus `c` armed for the wake-up pattern. -/
def State.wupArmed (s : State) (c : Nat) : Bool :=
  let sw := s.rbit .BUG_WAKE_CFG (12 + c)
  let wup := s.rbit .BUG_WAKE_CFG (4 + c)
  match s.armed with
  | 1 => !s.rbit .BUG_DOZE_BUS c && (sw || wup)
  | 2 => !sw && wup
  | 3 => sw || wup
  | _ => false

/-- R435: is bus `c` in selective wake. -/
def State.swArmed (s : State) (c : Nat) : Bool := s.armed == 2 && s.rbit .BUG_WAKE_CFG (12 + c)

/-- WAKE_PIN (R437): an edge whose new level has stayed for the debounce time. -/
def execWakePin (i : Fin 4) (rising : Bool) (s : State) : Ans :=
  always s (fun s =>
    let s := { s with bug := { s.bug with pins := if rising then maskSet s.bug.pins i else maskClr s.bug.pins i } }
    let edge := s.rfld .BUG_WAKE_PIN (8 * i.val) 2
    if s.rbit .BUG_WAKE_CFG i && bit (BitVec.ofNat 32 edge) (if rising then 0 else 1) &&
      (s.armed != 0 || s.bug.seq == .prepare) then wake s 1 i else s)

/-- CAN_WUP (R438). -/
def execCanWup (c : Fin 8) (s : State) : Ans := always s (fun s => if s.wupArmed c then wake s 2 c else s)

/-- R439: does filter `k` match a frame on bus `c`. -/
def State.swMatch (s : State) (k c : Nat) (f : BusFrame) : Bool :=
  let id := s.reg .BUG_SW_ID k
  let m := s.reg .BUG_SW_IDMASK k
  let ct := s.reg .BUG_SW_CTRL k
  let data := s.reg64 .BUG_SW_DATA_LO .BUG_SW_DATA_HI k &&& s.reg64 .BUG_SW_DMASK_LO .BUG_SW_DMASK_HI k
  bit ct 0 && (fld ct 1 3 == c) && f.kind == 0 && !f.fdf && !f.rtr &&
    maskEq f.id (fld id 0 29) (fld m 0 29) && (!bit m 29 || bit id 29 == f.ide) &&
    (!bit ct 4 || (f.data.length == fld ct 8 4 && (leNat f.data 0 8 &&& data) != 0))

/-- R439: an erroneous frame on bus `c` is counted; a counter above ERR_LIMIT raises a wake. -/
def swError (s : State) (c : Nat) : State :=
  let s := { s with bug := { s.bug with swErr := SMap.upd 0 s.bug.swErr c (fun n => n + 1) } }
  if s.rfld .BUG_SW_CFG 8 8 < SMap.get 0 s.bug.swErr c then wake s 4 c else s

/-- CAN_FRAME (R439): a frame sent correctly on bus `c`. CAN FD frames count as neither good nor bad with FD_PASSIVE; without it
the transceiver, which decodes classical frames, takes one as erroneous (DEDUCED, log entry 45). -/
def execCanFrame (c : Fin 8) (f : BusFrame) (s : State) : Ans :=
  always s (fun s =>
    if !s.swArmed c || f.kind != 0 then s
    else if f.fdf then (if s.rbit .BUG_SW_CFG 2 then s else swError s c)
    else
      let s := { s with bug := { s.bug with swErr := SMap.upd 0 s.bug.swErr c (fun n => n - 1) } }
      match (List.range 8).find? (fun k => s.swMatch k c f) with
      | some k => wake s 3 k
      | none => s)

/-- CAN_ERR (R439): an erroneous frame on bus `c`. -/
def execCanErr (c : Fin 8) (s : State) : Ans := always s (fun s => if !s.swArmed c then s else swError s c)

/-- LIN_WAKE (R438). -/
def execLinWake (l : Fin 4) (s : State) : Ans :=
  always s (fun s =>
    if s.armed != 0 && s.rbit .BUG_WAKE_CFG (20 + l.val) && !(s.armed == 1 && s.rbit .BUG_DOZE_BUS (8 + l.val)) then wake s 5 l
    else s)

/-- TC10_WAKE (R440, R446): a partner's wake-up pulse on a sleeping link, or its wake-up request during PREPARE. -/
def execTc10Wake (n : Fin 16) (s : State) : Ans :=
  always s (fun s =>
    let rx := s.rbit .BUG_TC10_CFG n
    if !s.hasPort n then s
    else if s.bug.seq == .prepare then wake s 6 n
    else if s.armed == 2 && rx then wake s 6 n
    else if s.armed == 1 && rx && !s.rbit .BUG_DOZE_CFG n then wake s 6 n
    else s)

/-- WAKE_TIMER (R441): the seconds of BUG_WAKE_TIMER have passed since the commit. -/
def execWakeTimer (s : State) : Ans :=
  always s (fun s =>
    if s.bug.timerOn then wake { s with bug := { s.bug with timerOn := false } } 7 0 else s)

/-- VBAT_RETURN (R432): VBAT has been at least 6.0 V for 10 ms after a brownout. -/
def execVbatReturn (s : State) : Ans := always s (fun s => if s.bug.power == .brownout then wake s 8 0 else s)

/-- BUG_WAKE_CLR (R442): the wake latch is cleared. -/
def wakeClear (s : State) : State := s.setReg .BUG_WAKE_LATCH 0

/-- BUG_WAKE_CLR (R442). -/
def execBugWakeClr (s : State) : Ans := onBar0 s .BUG_WAKE_CLR 0 wakeClear

/-- WAKE_SEQUENCE (R448, R452): with the D-die down, a latched wake starts it. -/
def execWakeSequence (s : State) : Ans :=
  always s (fun s =>
    if !s.dOn && s.bug.woken && s.clk.resetN then
      wakeStart s (if s.bug.power == .brownout && s.rfld .BUG_WAKE_LATCH 0 4 == 8 then 5 else 3)
    else s)

/-! ### Supplies (R431 to R436, R455, R530, R538) -/

/-- BROWNOUT (R432): VBAT has stayed below 4.5 V for 1 ms. -/
def execBrownout (s : State) : Ans :=
  always s (fun s =>
    if s.bug.power == .off || s.bug.power == .brownout then s
    else
      let s := dieOff (faultLog s 17) .brownout
      inhSet { s with bug := { s.bug with faultN := true, vbatLow := true, vbatOk := false, woken := false, timerOn := false } } 3)

/-- R455: KIND 6, with VBAT in mV, which is measured outside. -/
def vbatEvent (s : State) : State :=
  let x := s.fresh
  bugleEvent x.2 6 0 0 0 x.1

/-- VBAT_HIGH (R433): VBAT is above 38 V. -/
def execVbatHigh (s : State) : Ans := onDie s (fun s => vbatEvent (bugFlag s 5))

/-- VBAT_CROSSED (R455): VBAT enters or leaves the range from 6 V to 36 V. -/
def execVbatCrossed (ok : Bool) (s : State) : Ans :=
  onDie s (fun s => vbatEvent { s with bug := { s.bug with vbatOk := ok } })

/-- RAIL_FAIL (R434): a rail has been out of its window for 10 µs while VBAT is at least 4.5 V. -/
def execRailFail (r : Fin 5) (s : State) : Ans :=
  onDie s (fun s => doubt (bugFlag (s.setRbit .BUG_RAIL_STATUS r false) 6) 3)

/-- RAIL (R434): a rail below its reset level powers the D-die down and restarts it as after a wake. -/
def execRail (_r : Fin 5) (s : State) : Ans := onDie s (fun s => wakeStart (faultLog s 16) 4)

/-- POWER_LOSS (R431): VBAT below 3.0 V: OFF, the keep domain lost. -/
def execPowerLoss (s : State) : Ans :=
  always s (fun s =>
    let s := dieOff s .off
    { s with regs := [], bug := { power := .off, inh := 0, faultN := false, vbatOk := false } })

/-- R436: an output in current limit for 1 ms switches off until it next changes. -/
def inhTrip (s : State) (i : Nat) : State :=
  if maskBit s.bug.inh i && !maskBit s.bug.inhFault i then
    bugFlag { s with bug := { s.bug with inhFault := maskSet s.bug.inhFault i } } 7
  else s

/-- INH_FAULT (R436). -/
def execInhFault (i : Fin 2) (s : State) : Ans := always s (fun s => inhTrip s i)

/-- THERMAL_SHUTDOWN (R530): an INH switch in shutdown behaves as one in current limit. -/
def execThermalShutdown (u : ThermalUnit) (s : State) : Ans :=
  always s (fun s => match u with
    | .can c => s.setCan c { s.can c with hot := true }
    | .lin l => s.setLin l { s.linc l with hot := true }
    | .inh i => inhTrip s i)

/-- THERMAL_RECOVERY (R530): a transmitter is released below 160 °C; an INH output stays off until it next changes. -/
def execThermalRecovery (u : ThermalUnit) (s : State) : Ans :=
  always s (fun s => match u with
    | .can c => s.setCan c { s.can c with hot := false }
    | .lin l => s.setLin l { s.linc l with hot := false }
    | .inh _ => s)

end Sys2Proof.Machine
end

