-- ==== Sys2Proof/Machine/KelpieCore.lean ====
section
/-! DEFINITION. A Kelpie engine: its registers, memories, program counter, loops and calls, its faults and restarts, and the
queues that feed it (R294 to R305, R320 to R323). -/

namespace Sys2Proof.Machine

/-! ### The running context (R296, R301) -/

/-- Is an event routine running. -/
def Engine.inEvent (g : Engine) : Bool := match g.run with | .event _ => true | _ => false

/-- The class of the running event routine, 0 for none. -/
def Engine.cls (g : Engine) : Nat := match g.run with | .event c => c | _ => 0

/-- R296, R301: register k of the running routine's bank; k0 reads as zero. -/
def Engine.rg (g : Engine) (k : Nat) : Word :=
  if k = 0 then 0 else SMap.get 0 (if g.inEvent then g.regE else g.regM) k

/-- R301: a write to k0 is discarded. -/
def Engine.setRg (g : Engine) (k : Nat) (v : Word) : Engine :=
  if k = 0 then g
  else if g.inEvent then { g with regE := SMap.set 0 g.regE k v } else { g with regM := SMap.set 0 g.regM k v }

/-- R301: a register pair: rd takes the low word, rd + 1 the high word. -/
def Engine.setPair (g : Engine) (k : Nat) (v : Wide) : Engine := (g.setRg k (v.truncate 32)).setRg (k + 1) ((v >>> 32).truncate 32)

/-- Where the running routine stands. -/
def Engine.pc (g : Engine) : Nat := if g.inEvent then g.pcE else g.pcM
/-- The running routine goes to word `a`. -/
def Engine.setPc (g : Engine) (a : Nat) : Engine := if g.inEvent then { g with pcE := a } else { g with pcM := a }
/-- The loop stack: first word, END with 4,096 × the call depth added, passes left. -/
def Engine.loops (g : Engine) : List (Nat × Nat × Nat) := if g.inEvent then g.loopE else g.loopM
/-- The loop stack replaced. -/
def Engine.setLoops (g : Engine) (l : List (Nat × Nat × Nat)) : Engine := if g.inEvent then { g with loopE := l } else { g with loopM := l }
/-- The call stack. -/
def Engine.calls (g : Engine) : List Nat := if g.inEvent then g.callE else g.callM
/-- The call stack replaced. -/
def Engine.setCalls (g : Engine) (l : List Nat) : Engine := if g.inEvent then { g with callE := l } else { g with callM := l }

/-- Cycles of the run window are used (R295, R299). -/
def Engine.spend (g : Engine) (n : Nat) : Engine :=
  { g with used := g.used + n, usedMain := if g.inEvent then g.usedMain else g.usedMain + n }

/-- R295: cycles left in the run window of 3,840. -/
def Engine.left (g : Engine) : Nat := 3840 - (g.used + g.idle)

/-- R302 LOOP: control reaches word `a` from the word before it; a pass of a loop that ends there starts the next one. `n` bounds
the loops that end at one word. -/
def Engine.reach : Nat → Engine → Nat → Engine
  | 0, g, a => g.setPc a
  | n + 1, g, a =>
    match g.loops with
    | [] => g.setPc a
    | (first, stop, left) :: t =>
      if stop / 4096 = g.calls.length ∧ a = stop % 4096 + 1 then
        if 1 < left then (g.setLoops ((first, stop, left - 1) :: t)).setPc first else Engine.reach n (g.setLoops t) a
      else g.setPc a

/-- The next instruction in sequence. -/
def Engine.next (g : Engine) : Engine := g.reach 5 (g.pc + 1)

/-- A branch to `a`: the loops whose body does not hold it are left (R312). -/
def Engine.jump (g : Engine) (a : Nat) : Engine :=
  (g.setLoops (g.loops.dropWhile (fun l => l.2.1 / 4096 == g.calls.length && (decide (a < l.1) || decide (l.2.1 % 4096 < a))))).setPc a

/-! ### Data memory and event window (R303) -/

/-- `n` bytes of data memory from `a`. -/
def Engine.bytes (g : Engine) (a n : Nat) : List Byte := (List.range n).map (fun i => SMap.get 0 g.dat (a + i))

/-- Bytes written to data memory from `a`. -/
def Engine.store (g : Engine) (a : Nat) : List Byte → Engine
  | [] => g
  | b :: t => Engine.store { g with dat := SMap.set 0 g.dat a b } (a + 1) t

/-- Do `n` bytes from `a` lie in data memory. -/
def inData (a n : Nat) : Bool := decide (a + n ≤ 8192)

/-- `n` bytes of the event window from window offset `a`; zero outside an event routine and beyond the item. -/
def Engine.window (g : Engine) (a n : Nat) : List Byte :=
  match g.inEvent, g.item with
  | true, some it => slice it.bytes a n
  | _, _ => List.replicate n 0

/-- R303: the bytes that a load of `n` bytes at `a` returns, or none for an ADDR fault. -/
def Engine.load (g : Engine) (a n : Nat) : Option (List Byte) :=
  if a % n ≠ 0 then none
  else if inData a n then some (g.bytes a n)
  else if 0x4000 ≤ a ∧ a + n ≤ 0x5000 then some (g.window (a - 0x4000) n)
  else none

/-! ### Queues (R298) -/

/-- A hand-off reaches K7's HANDOFF queue, unless it is full or K7 does not run (R298, R321). -/
def handOff (s : State) (it : Item) : State :=
  let g := s.engine 7
  if !g.en || g.faulted || 64 ≤ g.handoff.length then s.bump (.klp 7 .HANDOFF_FULL)
  else s.setEngine 7 { g with handoff := g.handoff ++ [it] }

/-- The classes that an engine's role serves (R293). -/
def roleClasses (e : Nat) : List Nat :=
  if e ≤ 4 then [1] else if e ≤ 6 then [2] else if e = 7 then [4, 7] else if e ≤ 11 then [3, 7] else if e ≤ 13 then [5] else [6, 7]

/-- R293, R298: the value written to KLP_MBOX_IN, and a MAILBOX event of it on an engine whose role has that class. -/
def mboxIn (s : State) (e : Nat) (w : Word) : State :=
  let s := s.setReg .KLP_MBOX_IN w e
  let g := s.engine e
  if !(roleClasses e).contains 7 then s
  else s.setEngine e { g with mailbox := g.mailbox ++ [{ bytes := leBytes w.toNat 4 }] }

/-- MBOX_IN (R298). -/
def execMboxIn (e : Fin 16) (w : Word) (s : State) : Ans := onBar0 s .KLP_MBOX_IN e (fun s => mboxIn s e w)

/-! ### Faults, restart and disabling (R320 to R323) -/

/-- Hook requests that the engine can no longer answer are denied with a cause (R156, R158, R321). -/
def denyHooks (s : State) (l : List HookReq) (c : ZoneCtr) : State := l.foldl (fun s rq => hookAnswer s rq (.inr c)) s

/-- R321: an engine stops serving: its hook requests are denied and its hand-offs dropped. -/
def engineDark (s : State) (e : Nat) : State :=
  let g := s.engine e
  let hooks := g.hookOpen ++ g.hookPart
  let s := s.bump (.klp e .HANDOFF_FULL) g.handoff.length
  let s := s.setEngine e { g with run := .idle, hookOpen := [], hookPart := [], handoff := [], item := none }
  denyHooks s hooks .HOOK_FAULT

/-- R322: faults in the current 2^20-beat window. -/
def State.recentFaults (s : State) (e : Nat) : List Beat :=
  (s.engine e).faults.filter (fun b => decide ((s.beat - b).toNat < 2 ^ 20))

/-- R321: engine `e` stops at the instruction at word `pc`. -/
def engFault (s : State) (e cause pc : Nat) : State :=
  let g := s.engine e
  if g.faulted then s
  else
    let s := if g.inEvent then s.bump (.klp e .FAULT_DROP) else s
    let old := s.recentFaults e
    let s := s.setEngine e { g with faulted := true, dmemBad := cause == 4, stuck := decide (3 ≤ old.length), faults := old ++ [s.beat] }
    let s := engineDark s e
    let s := s.setReg .KLP_ENG_STATUS (BitVec.ofNat 32 (cause * 16 + pc % 4096 * 256)) e
    let s := (s.flag .KLP_ENG_EVENT .KLP_ENG_IRQ_EN 0 e).emitIf (s.rbit .KLP_CTRL 0) 0x70 e (cause + pc % 4096 * 256)
    if e = 12 ∨ e = 13 then bugAbort s 10 e else s

/-- ENGINE_FAULT (R320, R321): a fault of a running engine that its memories or fetch present. -/
def execEngineFault (e : Fin 16) (cause : Fin 8) (pc : BitVec 12) (s : State) : Ans :=
  onDie s (fun s =>
    if (s.engine e).run == .idle || cause.val = 0 || cause.val = 7 then s else engFault s e cause pc.toNat)

/-- A fault of the running routine at its present word. -/
def faultHere (s : State) (e cause : Nat) : State := engFault s e cause (s.engine e).pc

/-- R322: the engine restarts: data memory from the image in use, the carry region kept unless the cause was DMEM_ECC. -/
def engRestart (s : State) (e : Nat) : State :=
  let g := s.engine e
  let img := match g.image with | some i => i.dat | none => []
  let carry := SMap.keep (fun a => decide (0x1C00 ≤ a)) g.dat
  let dat := if g.dmemBad then img else SMap.merge (SMap.keep (fun a => decide (a < 0x1C00)) img) carry
  s.setEngine e { g with faulted := false, halted := false, restart := false, dmemBad := false, stuck := false, dat, run := .idle,
                         mainHalted := true, callM := [], callE := [], loopM := [], loopE := [] }

/-- RESTART (R322): KLP_ENG_CMD.RESTART; it acts at the next boundary. -/
def restartReq (s : State) (e : Nat) : State := s.setEngine e { s.engine e with restart := true }

/-- RESTART (R322). -/
def execRestart (e : Fin 16) (s : State) : Ans := onBar0 s .KLP_ENG_CMD e (fun s => restartReq s e)

/-- R322, R323: what a beat boundary does for engine `e` before its run: enabling, restarts. An engine HALTED in the safe state restarts when
that is left. -/
def engBoundary (s : State) (e : Nat) : State :=
  let en := s.rbit .KLP_ENG_CTRL 0 e
  let s := if (s.engine e).en && !en then engineDark s e else s
  let s := s.setEngine e { s.engine e with en }
  let g := s.engine e
  let auto := s.rbit .KLP_ENG_CTRL 1 e && !g.stuck
  if g.faulted && !g.halted && (g.restart || auto) then engRestart s e
  else if g.restart then s.setEngine e { g with restart := false } else s

/-- Does engine `e` execute: a routine runs, and neither a fault nor the safe state has stopped it. -/
def State.engRuns (s : State) (e : Nat) : Bool :=
  let g := s.engine e
  g.run != .idle && !g.faulted && !g.halted && g.en

/-- An instruction of engine `e`: with no routine running there is none. -/
def onEng (s : State) (e : Nat) (f : State → State) : Ans := onDie s (fun s => if s.engRuns e then f s else s)

/-- HOOK_TIMEOUT (R158): the requests of engine K8 + e unanswered at the boundary into q + TMO are denied. -/
def execHookTimeout (e : Fin 4) (s : State) : Ans :=
  onDie s (fun s =>
    let k := 8 + e.val
    let g := s.engine k
    let late := fun (rq : HookReq) => passed (rq.queued + BitVec.ofNat 48 (s.rfld .FW_HOOK_CFG 8 4 e)) s.beat
    let s := denyHooks s (g.hookOpen.filter late ++ g.hookPart.filter late) .HOOK_TMO
    let g := s.engine k
    s.setEngine k { g with hookOpen := g.hookOpen.filter (fun r => !late r), hookPart := g.hookPart.filter (fun r => !late r) })

/-! ### Frame items (R304) -/

/-- R304: a frame item. -/
def frameItem (f : BusFrame) (src age stamp filter : Nat) (verified : Bool) (wire : Nat) : List Byte :=
  let b := fun (c : Bool) k => if c then 2 ^ k else 0
  leBytes (f.kind + b f.ide 2 + b f.fdf 3 + b f.brs 4 + b f.esi 5 + b f.rtr 6 + b f.sec 7 + src * 2 ^ 8 + age * 2 ^ 16) 4 ++
  leBytes f.id 4 ++ leBytes (f.data.length + f.sdt * 2 ^ 16 + f.vcid * 2 ^ 24) 4 ++ leBytes f.af 4 ++ leBytes stamp 8 ++
  leBytes (filter + b verified 16 + wire * 2 ^ 24) 4 ++ leBytes 0 4 ++ f.data

/-- R304: the frame of a frame item. -/
def itemFrame (l : List Byte) : BusFrame :=
  let w := leWord l 0
  { kind := fld w 0 2, ide := bit w 2, fdf := bit w 3, brs := bit w 4, esi := bit w 5, rtr := bit w 6, sec := bit w 7,
    id := fld (leWord l 4) 0 29, sdt := fld (leWord l 8) 16 8, vcid := fld (leWord l 8) 24 8, af := leNat l 12 4,
    data := slice l 32 (fld (leWord l 8) 0 12) }

/-- SRC of a frame item. -/
def itemSrc (l : List Byte) : Nat := fld (leWord l 0) 8 5
/-- STAMP of a frame item. -/
def itemStamp (l : List Byte) : Nat := leNat l 16 8
/-- WIRE of a frame item. -/
def itemWire (l : List Byte) : Nat := fld (leWord l 24) 24 5

end Sys2Proof.Machine
end

