-- ==== Sys2Proof/Machine/KelpieOps.lean ====
section
/-! DEFINITION. The Kelpie instructions that work on registers, data memory and the program counter (R300 to R303, R312). Each
operation is used by the row's command and by the interpreter of whole routines. -/

namespace Sys2Proof.Machine

/-! ### Register arithmetic (R302) -/

/-- An R-format instruction: rd takes a value computed from the registers. -/
def kReg (s : State) (e rd cost : Nat) (v : Engine → Word) : State :=
  let g := s.engine e
  s.setEngine e ((g.setRg rd (v g)).spend cost).next

/-- R300: an immediate that is zero-extended. -/
def immZ (imm : BitVec 18) : Word := imm.zeroExtend 32
/-- R300: an immediate of ADDI, a load or a store, which is sign-extended. -/
def immS (imm : BitVec 18) : Word := imm.signExtend 32

/-- ADD: rd = ra + rb. -/
def kAdd (s : State) (e rd ra rb : Nat) : State :=
  kReg s e rd 1 (fun g => let a := g.rg ra; let b := g.rg rb; a + b)
/-- ADD (R302). -/
def execAdd (e rd ra rb : Fin 16) (s : State) : Ans := onEng s e (fun s => kAdd s e rd ra rb)

/-- SUB: rd = ra - rb. -/
def kSub (s : State) (e rd ra rb : Nat) : State :=
  kReg s e rd 1 (fun g => let a := g.rg ra; let b := g.rg rb; a - b)
/-- SUB (R302). -/
def execSub (e rd ra rb : Fin 16) (s : State) : Ans := onEng s e (fun s => kSub s e rd ra rb)

/-- AND: rd = ra AND rb. -/
def kAnd (s : State) (e rd ra rb : Nat) : State :=
  kReg s e rd 1 (fun g => let a := g.rg ra; let b := g.rg rb; a &&& b)
/-- AND (R302). -/
def execAnd (e rd ra rb : Fin 16) (s : State) : Ans := onEng s e (fun s => kAnd s e rd ra rb)

/-- OR: rd = ra OR rb. -/
def kOr (s : State) (e rd ra rb : Nat) : State :=
  kReg s e rd 1 (fun g => let a := g.rg ra; let b := g.rg rb; a ||| b)
/-- OR (R302). -/
def execOr (e rd ra rb : Fin 16) (s : State) : Ans := onEng s e (fun s => kOr s e rd ra rb)

/-- XOR: rd = ra XOR rb. -/
def kXor (s : State) (e rd ra rb : Nat) : State :=
  kReg s e rd 1 (fun g => let a := g.rg ra; let b := g.rg rb; a ^^^ b)
/-- XOR (R302). -/
def execXor (e rd ra rb : Fin 16) (s : State) : Ans := onEng s e (fun s => kXor s e rd ra rb)

/-- SHL: rd = ra shifted left by rb[4:0]. -/
def kShl (s : State) (e rd ra rb : Nat) : State :=
  kReg s e rd 1 (fun g => let a := g.rg ra; let b := g.rg rb; a <<< (b.toNat % 32))
/-- SHL (R302). -/
def execShl (e rd ra rb : Fin 16) (s : State) : Ans := onEng s e (fun s => kShl s e rd ra rb)

/-- SHR: rd = ra shifted right by rb[4:0], filled with zero. -/
def kShr (s : State) (e rd ra rb : Nat) : State :=
  kReg s e rd 1 (fun g => let a := g.rg ra; let b := g.rg rb; a >>> (b.toNat % 32))
/-- SHR (R302). -/
def execShr (e rd ra rb : Fin 16) (s : State) : Ans := onEng s e (fun s => kShr s e rd ra rb)

/-- SAR: rd = ra shifted right by rb[4:0], filled with the sign. -/
def kSar (s : State) (e rd ra rb : Nat) : State :=
  kReg s e rd 1 (fun g => let a := g.rg ra; let b := g.rg rb; a.sshiftRight (b.toNat % 32))
/-- SAR (R302). -/
def execSar (e rd ra rb : Fin 16) (s : State) : Ans := onEng s e (fun s => kSar s e rd ra rb)

/-- SLT: rd = 1 if ra < rb signed, else 0. -/
def kSlt (s : State) (e rd ra rb : Nat) : State :=
  kReg s e rd 1 (fun g => let a := g.rg ra; let b := g.rg rb; if a.toInt < b.toInt then 1 else 0)
/-- SLT (R302). -/
def execSlt (e rd ra rb : Fin 16) (s : State) : Ans := onEng s e (fun s => kSlt s e rd ra rb)

/-- SLTU: rd = 1 if ra < rb unsigned, else 0. -/
def kSltu (s : State) (e rd ra rb : Nat) : State :=
  kReg s e rd 1 (fun g => let a := g.rg ra; let b := g.rg rb; if a.toNat < b.toNat then 1 else 0)
/-- SLTU (R302). -/
def execSltu (e rd ra rb : Fin 16) (s : State) : Ans := onEng s e (fun s => kSltu s e rd ra rb)

/-- MUL: rd = low 32 bits of ra × rb. -/
def kMul (s : State) (e rd ra rb : Nat) : State :=
  kReg s e rd 3 (fun g => let a := g.rg ra; let b := g.rg rb; BitVec.ofNat 32 (a.toNat * b.toNat))
/-- MUL (R302). -/
def execMul (e rd ra rb : Fin 16) (s : State) : Ans := onEng s e (fun s => kMul s e rd ra rb)

/-- MULHU: rd = high 32 bits of ra × rb, unsigned. -/
def kMulhu (s : State) (e rd ra rb : Nat) : State :=
  kReg s e rd 3 (fun g => let a := g.rg ra; let b := g.rg rb; BitVec.ofNat 32 (a.toNat * b.toNat / 2 ^ 32))
/-- MULHU (R302). -/
def execMulhu (e rd ra rb : Fin 16) (s : State) : Ans := onEng s e (fun s => kMulhu s e rd ra rb)

/-- ADDI: rd = ra + IMM. -/
def kAddi (s : State) (e rd ra : Nat) (imm : BitVec 18) : State :=
  kReg s e rd 1 (fun g => let a := g.rg ra; let i := immS imm; a + i)
/-- ADDI (R302). -/
def execAddi (e rd ra : Fin 16) (imm : BitVec 18) (s : State) : Ans := onEng s e (fun s => kAddi s e rd ra imm)

/-- ANDI: rd = ra AND IMM. -/
def kAndi (s : State) (e rd ra : Nat) (imm : BitVec 18) : State :=
  kReg s e rd 1 (fun g => let a := g.rg ra; let i := immZ imm; a &&& i)
/-- ANDI (R302). -/
def execAndi (e rd ra : Fin 16) (imm : BitVec 18) (s : State) : Ans := onEng s e (fun s => kAndi s e rd ra imm)

/-- ORI: rd = ra OR IMM. -/
def kOri (s : State) (e rd ra : Nat) (imm : BitVec 18) : State :=
  kReg s e rd 1 (fun g => let a := g.rg ra; let i := immZ imm; a ||| i)
/-- ORI (R302). -/
def execOri (e rd ra : Fin 16) (imm : BitVec 18) (s : State) : Ans := onEng s e (fun s => kOri s e rd ra imm)

/-- XORI: rd = ra XOR IMM. -/
def kXori (s : State) (e rd ra : Nat) (imm : BitVec 18) : State :=
  kReg s e rd 1 (fun g => let a := g.rg ra; let i := immZ imm; a ^^^ i)
/-- XORI (R302). -/
def execXori (e rd ra : Fin 16) (imm : BitVec 18) (s : State) : Ans := onEng s e (fun s => kXori s e rd ra imm)

/-- SHLI: rd = ra shifted left by IMM[4:0]. -/
def kShli (s : State) (e rd ra : Nat) (imm : BitVec 18) : State :=
  kReg s e rd 1 (fun g => let a := g.rg ra; let i := immZ imm; a <<< (i.toNat % 32))
/-- SHLI (R302). -/
def execShli (e rd ra : Fin 16) (imm : BitVec 18) (s : State) : Ans := onEng s e (fun s => kShli s e rd ra imm)

/-- SHRI: rd = ra shifted right by IMM[4:0], filled with zero. -/
def kShri (s : State) (e rd ra : Nat) (imm : BitVec 18) : State :=
  kReg s e rd 1 (fun g => let a := g.rg ra; let i := immZ imm; a >>> (i.toNat % 32))
/-- SHRI (R302). -/
def execShri (e rd ra : Fin 16) (imm : BitVec 18) (s : State) : Ans := onEng s e (fun s => kShri s e rd ra imm)

/-- SARI: rd = ra shifted right by IMM[4:0], filled with the sign. -/
def kSari (s : State) (e rd ra : Nat) (imm : BitVec 18) : State :=
  kReg s e rd 1 (fun g => let a := g.rg ra; let i := immZ imm; a.sshiftRight (i.toNat % 32))
/-- SARI (R302). -/
def execSari (e rd ra : Fin 16) (imm : BitVec 18) (s : State) : Ans := onEng s e (fun s => kSari s e rd ra imm)

/-- SLTIU: rd = 1 if ra < IMM unsigned, else 0. -/
def kSltiu (s : State) (e rd ra : Nat) (imm : BitVec 18) : State :=
  kReg s e rd 1 (fun g => let a := g.rg ra; let i := immZ imm; if a.toNat < i.toNat then 1 else 0)
/-- SLTIU (R302). -/
def execSltiu (e rd ra : Fin 16) (imm : BitVec 18) (s : State) : Ans := onEng s e (fun s => kSltiu s e rd ra imm)

/-- NOP: nothing. -/
def kNop (s : State) (e : Nat) : State := s.setEngine e ((s.engine e).spend 1).next
/-- NOP (R302). -/
def execNop (e : Fin 16) (s : State) : Ans := onEng s e (fun s => kNop s e)

/-- LUI: rd = IMM << 14. -/
def kLui (s : State) (e rd : Nat) (imm : BitVec 18) : State := kReg s e rd 1 (fun _ => immZ imm <<< 14)
/-- LUI (R302). -/
def execLui (e rd : Fin 16) (imm : BitVec 18) (s : State) : Ans := onEng s e (fun s => kLui s e rd imm)

/-- EXT: rd = (ra >> IMM[4:0]) AND (2^(IMM[9:5] + 1) − 1). -/
def kExt (s : State) (e rd ra : Nat) (imm : BitVec 18) : State :=
  kReg s e rd 1 (fun g => BitVec.ofNat 32 (((g.rg ra).toNat >>> fld (immZ imm) 0 5) % 2 ^ (fld (immZ imm) 5 5 + 1)))
/-- EXT (R302). -/
def execExt (e rd ra : Fin 16) (imm : BitVec 18) (s : State) : Ans := onEng s e (fun s => kExt s e rd ra imm)

/-- INS: bits IMM[4:0] upwards of rd, IMM[9:5] + 1 bits wide, take the low bits of ra; bits beyond 31 are lost. -/
def insField (d a : Word) (lo n : Nat) : Word :=
  let m : Word := BitVec.ofNat 32 ((2 ^ n - 1) * 2 ^ lo)
  (d &&& ~~~m) ||| ((a <<< lo) &&& m)
/-- INS: as `insField` states. -/
def kIns (s : State) (e rd ra : Nat) (imm : BitVec 18) : State :=
  kReg s e rd 1 (fun g => insField (g.rg rd) (g.rg ra) (fld (immZ imm) 0 5) (fld (immZ imm) 5 5 + 1))
/-- INS (R302). -/
def execIns (e rd ra : Fin 16) (imm : BitVec 18) (s : State) : Ans := onEng s e (fun s => kIns s e rd ra imm)

/-- CYC: rd = cycles left in the run window. -/
def kCyc (s : State) (e rd : Nat) : State := kReg s e rd 1 (fun g => BitVec.ofNat 32 g.left)
/-- CYC (R302). -/
def execCyc (e rd : Fin 16) (s : State) : Ans := onEng s e (fun s => kCyc s e rd)

/-! ### Loads and stores (R302, R303) -/

/-- The address ra + IMM. -/
def Engine.ea (g : Engine) (ra : Nat) (imm : BitVec 18) : Nat := (g.rg ra + immS imm).toNat

/-- A load of `n` bytes, as the number that they spell; an ADDR fault outside the map. -/
def kLoad (s : State) (e rd ra : Nat) (imm : BitVec 18) (n : Nat) (spell : List Byte → Nat) : State :=
  match (s.engine e).load ((s.engine e).ea ra imm) n with
  | some b => kReg s e rd 2 (fun _ => BitVec.ofNat 32 (spell b))
  | none => faultHere s e 2

/-- A store of the bytes of rd to data memory; anything else is an ADDR fault. -/
def kStore (s : State) (e rd ra : Nat) (imm : BitVec 18) (n : Nat) (spell : Nat → List Byte) : State :=
  let g := s.engine e
  let a := g.ea ra imm
  if a % n = 0 ∧ inData a n then s.setEngine e (((g.store a (spell (g.rg rd).toNat)).spend 1).next) else faultHere s e 2

/-- LD: rd = 32-bit word. -/
def kLd (s : State) (e rd ra : Nat) (imm : BitVec 18) : State := kLoad s e rd ra imm 4 (fun b => leNat b 0 4)
/-- LD (R302). -/
def execLd (e rd ra : Fin 16) (imm : BitVec 18) (s : State) : Ans := onEng s e (fun s => kLd s e rd ra imm)

/-- LDH: rd = 16-bit halfword, zero-extended. -/
def kLdh (s : State) (e rd ra : Nat) (imm : BitVec 18) : State := kLoad s e rd ra imm 2 (fun b => leNat b 0 2)
/-- LDH (R302). -/
def execLdh (e rd ra : Fin 16) (imm : BitVec 18) (s : State) : Ans := onEng s e (fun s => kLdh s e rd ra imm)

/-- LDB: rd = byte, zero-extended. -/
def kLdb (s : State) (e rd ra : Nat) (imm : BitVec 18) : State := kLoad s e rd ra imm 1 (fun b => leNat b 0 1)
/-- LDB (R302). -/
def execLdb (e rd ra : Fin 16) (imm : BitVec 18) (s : State) : Ans := onEng s e (fun s => kLdb s e rd ra imm)

/-- LDBE: rd = 32-bit word read big-endian. -/
def kLdbe (s : State) (e rd ra : Nat) (imm : BitVec 18) : State := kLoad s e rd ra imm 4 (fun b => beNat b 0 4)
/-- LDBE (R302). -/
def execLdbe (e rd ra : Fin 16) (imm : BitVec 18) (s : State) : Ans := onEng s e (fun s => kLdbe s e rd ra imm)

/-- ST: stores rd as a 32-bit word. -/
def kSt (s : State) (e rd ra : Nat) (imm : BitVec 18) : State := kStore s e rd ra imm 4 (fun v => leBytes v 4)
/-- ST (R302). -/
def execSt (e rd ra : Fin 16) (imm : BitVec 18) (s : State) : Ans := onEng s e (fun s => kSt s e rd ra imm)

/-- STH: stores the low halfword of rd. -/
def kSth (s : State) (e rd ra : Nat) (imm : BitVec 18) : State := kStore s e rd ra imm 2 (fun v => leBytes v 2)
/-- STH (R302). -/
def execSth (e rd ra : Fin 16) (imm : BitVec 18) (s : State) : Ans := onEng s e (fun s => kSth s e rd ra imm)

/-- STB: stores the low byte of rd. -/
def kStb (s : State) (e rd ra : Nat) (imm : BitVec 18) : State := kStore s e rd ra imm 1 (fun v => leBytes v 1)
/-- STB (R302). -/
def execStb (e rd ra : Fin 16) (imm : BitVec 18) (s : State) : Ans := onEng s e (fun s => kStb s e rd ra imm)

/-- STBE: stores rd as a 32-bit word, big-endian. -/
def kStbe (s : State) (e rd ra : Nat) (imm : BitVec 18) : State := kStore s e rd ra imm 4 (fun v => beBytes v 4)
/-- STBE (R302). -/
def execStbe (e rd ra : Fin 16) (imm : BitVec 18) (s : State) : Ans := onEng s e (fun s => kStbe s e rd ra imm)

/-! ### Branches, calls, loops, HALT (R296, R302, R312) -/

/-- A branch: to TARGET when the comparison holds. -/
def kBranch (s : State) (e ra rb target : Nat) (p : Word → Word → Bool) : State :=
  let g := s.engine e
  s.setEngine e (if p (g.rg ra) (g.rg rb) then (g.spend 2).jump target else (g.spend 2).next)

/-- BEQ: branch to TARGET if ra = rb. -/
def kBeq (s : State) (e ra rb target : Nat) : State := kBranch s e ra rb target (fun a b => a == b)
/-- BEQ (R302). -/
def execBeq (e ra rb : Fin 16) (target : BitVec 12) (s : State) : Ans := onEng s e (fun s => kBeq s e ra rb target.toNat)

/-- BNE: branch to TARGET if ra ≠ rb. -/
def kBne (s : State) (e ra rb target : Nat) : State := kBranch s e ra rb target (fun a b => a != b)
/-- BNE (R302). -/
def execBne (e ra rb : Fin 16) (target : BitVec 12) (s : State) : Ans := onEng s e (fun s => kBne s e ra rb target.toNat)

/-- BLT: branch to TARGET if ra < rb signed. -/
def kBlt (s : State) (e ra rb target : Nat) : State := kBranch s e ra rb target (fun a b => decide (a.toInt < b.toInt))
/-- BLT (R302). -/
def execBlt (e ra rb : Fin 16) (target : BitVec 12) (s : State) : Ans := onEng s e (fun s => kBlt s e ra rb target.toNat)

/-- BGE: branch to TARGET if ra ≥ rb signed. -/
def kBge (s : State) (e ra rb target : Nat) : State := kBranch s e ra rb target (fun a b => decide (b.toInt ≤ a.toInt))
/-- BGE (R302). -/
def execBge (e ra rb : Fin 16) (target : BitVec 12) (s : State) : Ans := onEng s e (fun s => kBge s e ra rb target.toNat)

/-- BLTU: branch to TARGET if ra < rb unsigned. -/
def kBltu (s : State) (e ra rb target : Nat) : State := kBranch s e ra rb target (fun a b => decide (a.toNat < b.toNat))
/-- BLTU (R302). -/
def execBltu (e ra rb : Fin 16) (target : BitVec 12) (s : State) : Ans := onEng s e (fun s => kBltu s e ra rb target.toNat)

/-- BGEU: branch to TARGET if ra ≥ rb unsigned. -/
def kBgeu (s : State) (e ra rb target : Nat) : State := kBranch s e ra rb target (fun a b => decide (b.toNat ≤ a.toNat))
/-- BGEU (R302). -/
def execBgeu (e ra rb : Fin 16) (target : BitVec 12) (s : State) : Ans := onEng s e (fun s => kBgeu s e ra rb target.toNat)

/-- JMP: go to TARGET. -/
def kJmp (s : State) (e target : Nat) : State := s.setEngine e (((s.engine e).spend 2).jump target)
/-- JMP (R302). -/
def execJmp (e : Fin 16) (target : BitVec 12) (s : State) : Ans := onEng s e (fun s => kJmp s e target.toNat)

/-- CALL: the return address is pushed; a fifth one outstanding is a STACK fault. -/
def kCall (s : State) (e target : Nat) : State :=
  let g := s.engine e
  if 4 ≤ g.calls.length then faultHere s e 6
  else s.setEngine e ((((g.spend 2).setCalls ((g.pc + 1) :: g.calls))).setPc target)
/-- CALL (R302). -/
def execCall (e : Fin 16) (target : BitVec 12) (s : State) : Ans := onEng s e (fun s => kCall s e target.toNat)

/-- RET: back to the pushed address, the subroutine's loops ended; with none pushed, a STACK fault. -/
def kRet (s : State) (e : Nat) : State :=
  let g := s.engine e
  match g.calls with
  | [] => faultHere s e 6
  | a :: t =>
    let g := (g.spend 2).setLoops (g.loops.dropWhile (fun l => l.2.1 / 4096 == g.calls.length))
    s.setEngine e ((g.setCalls t).reach 5 a)
/-- RET (R302). -/
def execRet (e : Fin 16) (s : State) : Ans := onEng s e (fun s => kRet s e)

/-- LOOP: the body from the next word to END runs `count` times; a fifth loop nested in a routine or subroutine is a STACK fault. MAX = 0 is an encoding that the loader refuses (ILLEGAL). -/
def kLoop (s : State) (e rc max stop : Nat) : State :=
  let g := s.engine e
  let count := if rc = 0 then max else min (g.rg rc).toNat max
  if max = 0 then faultHere s e 1
  else if count = 0 then s.setEngine e ((g.spend 1).reach 5 (stop + 1))
  else if 4 ≤ (g.loops.takeWhile (fun l => l.2.1 / 4096 == g.calls.length)).length then faultHere s e 6
  else s.setEngine e (((g.spend 1).setLoops ((g.pc + 1, stop + 4096 * g.calls.length, count) :: g.loops)).setPc (g.pc + 1))
/-- LOOP (R302). -/
def execLoop (e rc : Fin 16) (max : BitVec 10) (stop : BitVec 12) (s : State) : Ans :=
  onEng s e (fun s => kLoop s e rc max.toNat stop.toNat)

/-- HALT: the routine ends; after an event routine the main routine resumes where it stood, or the engine idles. -/
def kHalt (s : State) (e : Nat) : State :=
  let g := (s.engine e).spend 1
  let g := (g.setCalls []).setLoops []
  s.setEngine e (if g.inEvent then { g with run := if g.mainHalted then .idle else .main, item := none, answered := false }
    else { g with run := .idle, mainHalted := true })
/-- HALT (R296). -/
def execHalt (e : Fin 16) (s : State) : Ans := onEng s e (fun s => kHalt s e)

end Sys2Proof.Machine
end

