-- ==== Sys2Proof/Machine/KelpieAcc.lean ====
section
/-! DEFINITION. The accelerator instructions of the Kelpie engines: FLT, FWQ, CMAC, PUT, GET, VRD, TIME, SYS (R293, R304 to R311). -/

namespace Sys2Proof.Machine

/-! ### What an engine may execute (R293) -/

/-- The instruction groups of R293. -/
inductive AccOp where
  | flt | fwq | cmac | put | handoff | get | vrd | time | recTrig | bugle | sys
deriving DecidableEq, Repr

/-- R293, R309: may engine `e` execute an instruction of a group. -/
def roleHas (e : Nat) : AccOp → Bool
  | .flt => decide (e ≤ 6)
  | .fwq => decide (e ≤ 7)
  | .cmac => decide (e ≤ 7)
  | .put => decide (e ≤ 7)
  | .handoff => decide (e ≤ 6)
  | .get => decide (e ≤ 11) || decide (14 ≤ e)
  | .vrd => decide (8 ≤ e ∧ e ≤ 11)
  | .time => true
  | .recTrig => e == 7 || decide (14 ≤ e)
  | .bugle => e == 12 || e == 13
  | .sys => true

/-- An accelerator instruction that the engine's role or the encoding does not admit is an ILLEGAL fault. -/
def kAcc (s : State) (e : Nat) (op : AccOp) (ok : Bool) (f : State → State) : State :=
  if roleHas e op && ok then f s else faultHere s e 1

/-- R301: may rd name a register pair. -/
def pairOk (rd : Nat) : Bool := rd % 2 == 0 && decide (2 ≤ rd ∧ rd ≤ 14)

/-- The item of a running RX, TUNNEL or HANDOFF routine. -/
def Engine.frameIn (g : Engine) : Option Item :=
  if g.run == .event 1 || g.run == .event 2 || g.run == .event 4 then g.item else none

/-- rd takes a value that the manual does not state (log entry 1). -/
def kOpen (s : State) (e rd cost : Nat) : State :=
  let x := s.fresh
  kReg x.2 e rd cost (fun _ => x.1)

/-- R289, R306: the matcher finds no plane to answer: the frame is dropped, counted FILTER_GAP. -/
def filterGap (s : State) (e : Nat) : State := (s.bump (.klp e .FILTER_GAP)).bump (.device .GW_FILTER_GAP)

/-! ### FLT (R306) -/

/-- FLT FN 0: the current RX or TUNNEL item is matched; the entry's nine words go to data memory at ra, its index to rd. -/
def kFltMatch (s : State) (e rd ra n : Nat) : State :=
  kAcc s e .flt (n != 0) (fun s =>
    let g := s.engine e
    let a := (g.rg ra).toNat
    if !inData a 36 then faultHere s e 2
    else match g.frameIn with
      | none => kOpen s e rd 16
      | some it =>
        match s.answering with
        | none => kReg (filterGap s e) e rd 16 (fun _ => 0xFFFFFFFE)
        | some b =>
          match (s.plane b).fltFind (itemFrame it.bytes) (itemSrc it.bytes) (itemWire it.bytes) with
          | none => kReg (s.bump (.gwsrc (itemSrc it.bytes) .NO_ROUTE)) e rd 16 (fun _ => 0xFFFFFFFF)
          | some (i, ent) =>
            kReg (s.setEngine e (g.store a (wordsBytes ((List.range 9).map (wd ent))))) e rd 16 (fun _ => BitVec.ofNat 32 i))
/-- FLT_MATCH (R306). -/
def execFltMatch (e rd ra : Fin 16) (n : BitVec 8) (s : State) : Ans := onEng s e (fun s => kFltMatch s e rd ra n.toNat)

/-- FLT FN 1: words 5 to 8 of the entry whose index is at ra. -/
def kFltWrite (s : State) (e rd ra n : Nat) : State :=
  kAcc s e .flt (n != 0) (fun s =>
    let g := s.engine e
    let a := (g.rg ra).toNat
    if !inData a 36 then faultHere s e 2
    else kReg (fltStore s (leNat (g.bytes a 4) 0 4 % 1024) (leWords (g.bytes (a + 20) 16) 0 4)) e rd 16 (fun _ => 0))
/-- FLT_WRITE_STATE (R306). -/
def execFltWriteState (e rd ra : Fin 16) (n : BitVec 8) (s : State) : Ans := onEng s e (fun s => kFltWrite s e rd ra n.toNat)

/-! ### FWQ (R307) -/

/-- The number of distinct destination zones of a mask. -/
def State.maskZones (s : State) (mask : Nat) : Nat := ((maskList mask 28).map s.busDstZone).eraseDups.length

/-- KP and rd take a mask. -/
def kPermit (s : State) (e rd cost m : Nat) : State :=
  kReg (s.setEngine e { s.engine e with kp := m }) e rd cost (fun _ => BitVec.ofNat 32 m)

/-- FWQ: Mastiff's answer for the frame described at ra. -/
def kFwq (s : State) (e rd ra n : Nat) : State :=
  kAcc s e .fwq (n != 0) (fun s =>
    let g := s.engine e
    let a := (g.rg ra).toNat
    if !inData a 12 then faultHere s e 2
    else
      let w := leWords (g.bytes a 12) 0 3
      let f : BusFrame := { kind := wfld w 0 30 2, ide := bit (wd w 0) 29, id := wfld w 0 0 29,
                            data := List.replicate (wfld w 1 0 12) 0 }
      let mask := wfld w 2 0 28
      let cost := 12 + 4 * n
      if n < s.maskZones mask then kPermit (s.bump (.klp e .FWQ_WIDE)) e rd cost 0
      else match g.frameIn with
        | none => let x := s.fresh; kPermit x.2 e rd cost (x.1.toNat &&& mask)
        | some it =>
          let x := busAllowed s f (if e = 7 then it.verified else g.kv) (itemSrc it.bytes) it.port mask
          kPermit x.2 e rd cost x.1)
/-- FWQ (R307). -/
def execFwq (e rd ra : Fin 16) (n : BitVec 8) (s : State) : Ans := onEng s e (fun s => kFwq s e rd ra n.toNat)

/-! ### CMAC (R308, R388) -/

/-- The fields of a CMAC block: slot, MAC_LEN, message address, tag address, message length. -/
def cmacBlock (b : List Byte) : Nat × Nat × Nat × Nat × Nat :=
  (fld (leWord b 0) 0 6, fld (leWord b 0) 8 4 + 1, fld (leWord b 4) 0 13, fld (leWord b 4) 16 13, fld (leWord b 8) 0 12)

/-- The tag of the block at ra, or rd's code for none: 2 without a usable key or core or with a lane mismatch, 3 for a long message. -/
def kTag (s : State) (e n : Nat) (blk : Nat × Nat × Nat × Nat × Nat) (rep : CipherReport) : (Nat ⊕ List Byte) × State :=
  let msg := (s.engine e).bytes blk.2.2.1 blk.2.2.2.2
  if 16 * n < blk.2.2.2.2 then
    match cmacKey s e blk.1 rep with
    | (none, s) => (.inl 2, s)
    | (some _, s) => (.inl 3, s)
  else match cmacTag s e blk.1 rep msg with
    | (none, s) => (.inl 2, s)
    | (some t, s) => (.inr t, s)

/-- CMAC FN 0: the 16-byte tag goes to the tag address. -/
def kCmacGen (s : State) (e rd ra n : Nat) (rep : CipherReport) : State :=
  kAcc s e .cmac (n != 0) (fun s =>
    let g := s.engine e
    let a := (g.rg ra).toNat
    let blk := cmacBlock (g.bytes a 12)
    if !inData a 12 || !inData blk.2.2.1 blk.2.2.2.2 || !inData blk.2.2.2.1 16 then faultHere s e 2
    else match kTag s e n blk rep with
      | (.inl c, s) => kReg s e rd (16 + 4 * n) (fun _ => BitVec.ofNat 32 c)
      | (.inr t, s) => kReg (s.setEngine e ((s.engine e).store blk.2.2.2.1 t)) e rd (16 + 4 * n) (fun _ => 0))
/-- CMAC_GENERATE (R308). -/
def execCmacGenerate (e rd ra : Fin 16) (n : BitVec 8) (rep : CipherReport) (s : State) : Ans :=
  onEng s e (fun s => kCmacGen s e rd ra n.toNat rep)

/-- CMAC FN 1: the first MAC_LEN bytes of the tag are compared with those at the tag address; a match sets KV. -/
def kCmacVerify (s : State) (e rd ra n : Nat) (rep : CipherReport) : State :=
  kAcc s e .cmac (n != 0) (fun s =>
    let g := s.engine e
    let a := (g.rg ra).toNat
    let blk := cmacBlock (g.bytes a 12)
    if !inData a 12 || !inData blk.2.2.1 blk.2.2.2.2 || !inData blk.2.2.2.1 blk.2.1 then faultHere s e 2
    else match kTag s e n blk rep with
      | (.inl c, s) => kReg s e rd (16 + 4 * n) (fun _ => BitVec.ofNat 32 c)
      | (.inr t, s) =>
        let same := t.take blk.2.1 == (s.engine e).bytes blk.2.2.2.1 blk.2.1
        let s := if same then s.setEngine e { s.engine e with kv := true } else s
        kReg s e rd (16 + 4 * n) (fun _ => if same then 0 else 1))
/-- CMAC_VERIFY (R308). -/
def execCmacVerify (e rd ra : Fin 16) (n : BitVec 8) (rep : CipherReport) (s : State) : Ans :=
  onEng s e (fun s => kCmacVerify s e rd ra n.toNat rep)

/-! ### PUT (R309) -/

/-- PUT FN 0: the item at ra goes to the destinations of its mask that KP permits. -/
def kPutSend (s : State) (e rd ra n : Nat) : State :=
  kAcc s e .put (n != 0) (fun s =>
    let g := s.engine e
    let a := (g.rg ra).toNat
    let len := leNat (g.bytes (a + 8) 2) 0 2 % 4096
    if !inData a (32 + len) then faultHere s e 2
    else if 16 * n < len then kReg (s.bump (.klp e .PUT_LEN)) e rd (8 + n) (fun _ => 0)
    else
      let b := g.bytes a (32 + len)
      let dst := leNat b 28 4 % 2 ^ 28
      let s := s.bump (.klp e .PUT_DENIED) (maskCount dst 28 - maskCount (dst &&& g.kp) 28)
      let x := busSendAll s (dst &&& g.kp) (itemFrame b) (itemStamp b) (itemWire b)
      kReg x.2 e rd (8 + n) (fun _ => BitVec.ofNat 32 x.1))
/-- PUT_SEND (R309). -/
def execPutSend (e rd ra : Fin 16) (n : BitVec 8) (s : State) : Ans := onEng s e (fun s => kPutSend s e rd ra n.toNat)

/-- PUT FN 1: the item at ra goes to K7's HANDOFF queue with KV as its VERIFIED; it is written to no destination. -/
def kPutHandoff (s : State) (e rd ra n : Nat) : State :=
  kAcc s e .handoff (n != 0) (fun s =>
    let g := s.engine e
    let a := (g.rg ra).toNat
    let len := leNat (g.bytes (a + 8) 2) 0 2 % 4096
    if !inData a (32 + len) then faultHere s e 2
    else if 16 * n < len then kReg (s.bump (.klp e .PUT_LEN)) e rd (8 + n) (fun _ => 0)
    else
      let b := g.bytes a (32 + len)
      let b := overlay b 2 [0, 0]
      let b := overlay b 26 [if g.kv then 1 else 0]
      let port := match g.frameIn with | some it => it.port | none => 0
      kReg (handOff s { bytes := b, src := itemSrc b, port, verified := g.kv }) e rd (8 + n) (fun _ => 0))
/-- PUT_HANDOFF (R309). -/
def execPutHandoff (e rd ra : Fin 16) (n : BitVec 8) (s : State) : Ans := onEng s e (fun s => kPutHandoff s e rd ra n.toNat)

/-! ### GET, VRD, TIME (R302, R310) -/

/-- GET: N × 16 bytes from the event window at ra to data memory at rd. -/
def kGet (s : State) (e rd ra n : Nat) : State :=
  kAcc s e .get (n != 0) (fun s =>
    let g := s.engine e
    let a := (g.rg ra).toNat
    let d := (g.rg rd).toNat
    if a < 0x4000 ∨ 0x5000 < a + 16 * n ∨ !inData d (16 * n) then faultHere s e 2
    else s.setEngine e (((g.store d (g.window (a - 0x4000) (16 * n))).spend (2 + n)).next))
/-- GET (R302). -/
def execGet (e rd ra : Fin 16) (n : BitVec 8) (s : State) : Ans := onEng s e (fun s => kGet s e rd ra n.toNat)

/-- R310: the verdict of the running hook routine. -/
def hookVerdict (s : State) (e : Nat) (v : Nat) : State :=
  let g := s.engine e
  if g.run != .event 3 || g.answered then s
  else
    let s := s.setEngine e { g with answered := true }
    match g.item.bind (fun it => it.hook) with
    | none => s.bump (.klp e .VRD_LATE)
    | some rq =>
      if g.hookOpen.contains rq then
        hookAnswer (s.setEngine e { g with answered := true, hookOpen := g.hookOpen.erase rq }) rq (.inl v)
      else s.bump (.klp e .VRD_LATE)

/-- VRD: the code in rd[3:0]. -/
def kVrd (s : State) (e rd : Nat) : State :=
  kAcc s e .vrd true (fun s =>
    let v := fld ((s.engine e).rg rd) 0 4
    let s := s.setEngine e ((s.engine e).spend 2).next
    hookVerdict s e v)
/-- VRD (R310). -/
def execVrd (e rd : Fin 16) (s : State) : Ans := onEng s e (fun s => kVrd s e rd)

/-- TIME: a 64-bit value to the pair rd. -/
def kTime (s : State) (e rd : Nat) (v : Wide) : State :=
  kAcc s e .time (pairOk rd) (fun s => s.setEngine e (((s.engine e).setPair rd v).spend 4).next)
/-- TIME_DOMAIN (R302): FN 0 to 3: the time of the domain in ns. -/
def execTimeDomain (e rd : Fin 16) (d : Fin 4) (s : State) : Ans :=
  onEng s e (fun s => kTime s e rd ((s.domain d).ns s.time.cnt))
/-- TIME_BEAT (R302): FN 4: the beat number. -/
def execTimeBeat (e rd : Fin 16) (s : State) : Ans := onEng s e (fun s => kTime s e rd (s.beat.zeroExtend 64))
/-- TIME_COUNTER (R302): FN 5: the free-running counter. -/
def execTimeCounter (e rd : Fin 16) (s : State) : Ans := onEng s e (fun s => kTime s e rd s.time.cnt)

/-! ### SYS (R311) -/

/-- A SYS function with the value of rd. -/
def kSys (s : State) (e rd : Nat) (op : AccOp) (f : State → Word → State) : State :=
  kAcc s e op true (fun s =>
    let v := (s.engine e).rg rd
    f (s.setEngine e ((s.engine e).spend 2).next) v)

/-- FN 0: a KLP_USER record with the engine number and rd. -/
def sysEvent (e : Nat) (s : State) (v : Word) : State := s.emit 0x71 e v.toNat
/-- SYS_EVENT (R311). -/
def execSysEvent (e rd : Fin 16) (s : State) : Ans := onEng s e (fun s => kSys s e rd .sys (sysEvent e))

/-- FN 1: a trigger of the Retriever. -/
def sysTrig (s : State) (_v : Word) : State := recTrigger s 3 s.now0
/-- SYS_REC_TRIG (R311). -/
def execSysRecTrig (e rd : Fin 16) (s : State) : Ans := onEng s e (fun s => kSys s e rd .recTrig sysTrig)

/-- FN 2: 1 more in user counter rd[1:0]. -/
def sysCount (e : Nat) (s : State) (v : Word) : State :=
  s.bump (.klp e (match fld v 0 2 with | 0 => .USER0 | 1 => .USER1 | 2 => .USER2 | _ => .USER3))
/-- SYS_COUNT (R311). -/
def execSysCount (e rd : Fin 16) (s : State) : Ans := onEng s e (fun s => kSys s e rd .sys (sysCount e))

/-- FN 3: rd to KLP_MBOX_OUT, and MBOX_OUT set. -/
def sysMbox (e : Nat) (s : State) (v : Word) : State :=
  (s.setReg .KLP_MBOX_OUT v e).flag .KLP_ENG_EVENT .KLP_ENG_IRQ_EN 1 e
/-- SYS_MBOX_OUT (R311). -/
def execSysMboxOut (e rd : Fin 16) (s : State) : Ans := onEng s e (fun s => kSys s e rd .sys (sysMbox e))

/-- FN 4: rd to Bugle as a request. -/
def sysBugle (e : Nat) (s : State) (v : Word) : State := bugleRequest s e v
/-- SYS_BUGLE (R456). -/
def execSysBugle (e rd : Fin 16) (s : State) : Ans := onEng s e (fun s => kSys s e rd .bugle (sysBugle e))

end Sys2Proof.Machine
end

