-- ==== Sys2Proof/Machine/KelpieLoad.lean ====
section
/-! DEFINITION. The loader of Kelpie images: the encoding, the bound rules, worst cases, refusals, and the loader's commands
(R300, R302, R312 to R319). -/

namespace Sys2Proof.Machine

/-! ### Encoding (R300, R302) -/

/-- The formats of R300. -/
inductive KFmt where
  | r | i | b | l | x | none
deriving DecidableEq, Repr

/-- The format of an opcode. -/
def kFmt (op : Nat) : KFmt :=
  if op = 0 then .i else if op ≤ 0x0C then .r else if op < 0x10 then .none else if op ≤ 0x1A then .i
  else if op < 0x20 then .none else if op ≤ 0x27 then .i else if op ≤ 0x30 then .b else if op = 0x31 then .l
  else if op = 0x32 then .b else if op = 0x33 then .r else if op < 0x38 then .none else .x

/-- Fields of an instruction word. -/
def kOpc (w : Word) : Nat := fld w 26 6
/-- rd, rc, or ra of format B. -/
def kA (w : Word) : Nat := fld w 22 4
/-- ra, or rb of format B. -/
def kB (w : Word) : Nat := fld w 18 4
/-- rb of format R. -/
def kC (w : Word) : Nat := fld w 14 4
/-- IMM. -/
def kImm (w : Word) : BitVec 18 := w.truncate 18
/-- TARGET, or END of format L. -/
def kT (w : Word) : Nat := fld w 0 12
/-- MAX of format L. -/
def kMax (w : Word) : Nat := fld w 12 10
/-- N of format X. -/
def kN (w : Word) : Nat := fld w 10 8
/-- FN of format X. -/
def kFn (w : Word) : Nat := fld w 0 10

/-- The number of functions FN of an X opcode. -/
def kFns (op : Nat) : Nat := match op with | 0x38 => 2 | 0x3A => 2 | 0x3B => 2 | 0x3E => 6 | 0x3F => 5 | _ => 1

/-- R300, R315 code 3: a defined opcode with its reserved fields zero, N and MAX not zero, and register pairs rightly named. -/
def wordOk (w : Word) : Bool :=
  match kFmt (kOpc w) with
  | .none => false
  | .r => fld w 0 14 == 0
  | .i => true
  | .b => fld w 12 6 == 0 && (kOpc w != 0x2E || (kA w == 0 && kB w == 0))
  | .l => kMax w != 0
  | .x => kN w != 0 && decide (kFn w < kFns (kOpc w)) && (kOpc w != 0x3E || pairOk (kA w))

/-- R293: does an engine's role admit the instruction. -/
def wordRole (e : Nat) (w : Word) : Bool :=
  match kOpc w with
  | 0x38 => roleHas e .flt
  | 0x39 => roleHas e .fwq
  | 0x3A => roleHas e .cmac
  | 0x3B => roleHas e (if kFn w = 0 then .put else .handoff)
  | 0x3C => roleHas e .get
  | 0x3D => roleHas e .vrd
  | 0x3E => roleHas e .time
  | 0x3F => roleHas e (match kFn w with | 1 => .recTrig | 4 => .bugle | _ => .sys)
  | _ => true

/-- R302: c(a), with the instruction's own N. -/
def wordCost (w : Word) : Nat :=
  let op := kOpc w
  if op = 0x0B ∨ op = 0x0C then 3
  else if 0x20 ≤ op ∧ op ≤ 0x23 then 2
  else if 0x28 ≤ op ∧ op ≤ 0x30 then 2
  else match op with
    | 0x38 => 16 | 0x39 => 12 + 4 * kN w | 0x3A => 16 + 4 * kN w | 0x3B => 8 + kN w | 0x3C => 2 + kN w
    | 0x3D => 2 | 0x3E => 4 | 0x3F => 2 | _ => 1

/-! ### Paths (R312) -/

/-- What an instruction does to the flow. -/
inductive Flow where
  | seq | stop | ret | jmp (t : Nat) | br (t : Nat) | call (t : Nat) | loop (stop : Nat)
deriving DecidableEq, Repr

/-- The flow of a word. -/
def wordFlow (w : Word) : Flow :=
  match kOpc w with
  | 0x32 => .stop
  | 0x30 => .ret
  | 0x2E => .jmp (kT w)
  | 0x2F => .call (kT w)
  | 0x31 => .loop (kT w)
  | op => if 0x28 ≤ op ∧ op ≤ 0x2D then .br (kT w) else .seq

/-- Where control may go from word `a`; `into` = subroutines are followed. -/
def flowNext (into : Bool) (a : Nat) : Flow → List Nat
  | .seq => [a + 1]
  | .stop => []
  | .ret => []
  | .jmp t => [t]
  | .br t => [a + 1, t]
  | .call t => if into then [t, a + 1] else [a + 1]
  | .loop e => [a + 1, e + 1]

/-- The words reached from a work list, as a mask. Each word enters it once per edge, so 3 × 4,096 + 8 steps suffice. -/
def reachSet (code : Nat → Word) (n : Nat) (into : Bool) : Nat → List Nat → Nat → Nat
  | 0, _, seen => seen
  | _, [], seen => seen
  | fuel + 1, a :: t, seen =>
    if n ≤ a ∨ seen.testBit a then reachSet code n into fuel t seen
    else reachSet code n into fuel (flowNext into a (wordFlow (code a)) ++ t) (maskSet seen a)

/-- The words of a routine or subroutine, its callees left out. -/
def unitOf (code : Nat → Word) (n t : Nat) : Nat := reachSet code n false 13000 [t] 0

/-- The targets of the calls among the words of a mask. -/
def callsIn (code : Nat → Word) (n m : Nat) : List Nat :=
  ((maskList m n).filterMap (fun a => match wordFlow (code a) with | .call t => some t | _ => none)).eraseDups

/-- The subroutines that `d` calls from routines `l` reach. -/
def calledAt (code : Nat → Word) (n : Nat) : Nat → List Nat → List Nat
  | 0, l => l
  | d + 1, l => calledAt code n d (l.flatMap (fun t => callsIn code n (unitOf code n t))).eraseDups

/-- R312, R315: the words at fault under CALL: a CALL with 4 calls outstanding on a path to it, as a call cycle has too, or a RET that no
CALL has led to. -/
def callFaults (code : Nat → Word) (n : Nat) (entries : List Nat) : List Nat :=
  let words := fun (l : List Nat) => l.flatMap (fun t => maskList (unitOf code n t) n)
  (words (calledAt code n 4 entries)).filter (fun a => match wordFlow (code a) with | .call _ => true | _ => false) ++
    (words entries).filter (fun a => wordFlow (code a) == .ret)

/-- The loops of the reachable words: address and END. -/
def loopsIn (code : Nat → Word) (n m : Nat) : List (Nat × Nat) :=
  (maskList m n).filterMap (fun a => match wordFlow (code a) with | .loop e => some (a, e) | _ => none)

/-- Is word `a` in the body of a loop. -/
def inBody (l : Nat × Nat) (a : Nat) : Bool := decide (l.1 < a ∧ a ≤ l.2)

/-- R312: a LOOP rule broken at word `a`: END not beyond it, nested wrongly, or nested more than 4 deep; or an edge from `a` that
enters a body other than through its LOOP. -/
def loopBad (code : Nat → Word) (n : Nat) (ls : List (Nat × Nat)) (a : Nat) : Bool :=
  let f := wordFlow (code a)
  let own := match f with
    | .loop e => decide (e ≤ a) || decide (n ≤ e) || ls.any (fun l => inBody l a && decide (l.2 < e)) ||
        decide (4 ≤ (ls.filter (fun l => inBody l a)).length)
    | _ => false
  let tgt := match f with
    | .call t => [t]
    | _ => flowNext false a f
  own || tgt.any (fun t => ls.any (fun l => inBody l t && !(match f with | .call _ => false | _ => inBody l a) && l.1 != a))

/-! ### Worst cases (R313) -/

/-- w of the words from hi + 1 − k to hi, lowest first: paths that leave the region end there. `pass` gives the worst case of one
pass of a loop body, `callee` that of a subroutine. -/
def wRegion (code : Nat → Word) (reach : Nat) (callee : Nat → Nat) (pass : Nat → Nat → Nat) (hi : Nat) : Nat → List Nat
  | 0 => []
  | k + 1 =>
    let t := wRegion code reach callee pass hi k
    let a := hi - k
    let look := fun x => if x ≤ hi then t.getD (x - (a + 1)) 0 else 0
    let c := wordCost (code a)
    let w := match wordFlow (code a) with
      | .seq => c + look (a + 1)
      | .stop => c
      | .ret => c
      | .jmp x => c + look x
      | .br x => c + max (look (a + 1)) (look x)
      | .call x => c + callee x + look (a + 1)
      | .loop e =>
        let exits := (List.range (e - a)).filterMap (fun i =>
          let b := a + 1 + i
          if !reach.testBit b then none
          else match wordFlow (code b) with
            | .jmp x => if e < x then some x else none
            | .br x => if e < x then some x else none
            | _ => none)
        c + kMax (code a) * pass e (e - a) + exits.foldl (fun m x => max m (look x)) (look (e + 1))
    (if reach.testBit a then w else 0) :: t

/-- The worst case of one pass of the body of `k` words that ends at `hi`; loops nest `d` deep in it. -/
def wPass (code : Nat → Word) (reach : Nat) (callee : Nat → Nat) : Nat → Nat → Nat → Nat
  | 0, _, _ => 0
  | d + 1, hi, k => (wRegion code reach callee (wPass code reach callee d) hi k).headD 0

/-- w of every code word, subroutines evaluated `d` deep before their callers. -/
def wAll (code : Nat → Word) (n reach : Nat) : Nat → List Nat
  | 0 => []
  | d + 1 =>
    let sub := wAll code n reach d
    let callee := fun t => sub.getD t 0
    wRegion code reach callee (wPass code reach callee 4) (n - 1) n

/-! ### Judging an image (R312 to R316) -/

/-- R293, R317: may the host load the engine. -/
def hostLoads (e : Nat) : Bool := decide (7 ≤ e ∧ e ≤ 11) || decide (14 ≤ e)

/-- Code word `a` of an image. -/
def imgCode (b : List Byte) (a : Nat) : Word := leWord b (0x40 + 4 * a)

/-- R316: is the layout wrong. -/
def imgFormatBad (b : List Byte) : Bool :=
  let cw := fld (leWord b 12) 0 13
  let db := fld (leWord b 12) 16 14
  let size := 0x40 + 4 * cw + db
  leNat b 0 4 != 0x49504C4B || fld (leWord b 4) 0 8 != 1 || decide (cw = 0) || decide (4096 < cw) || decide (8192 < db) ||
    db % 4 != 0 || decide (b.length < size) || leNat b 0x30 12 != 0 || fld (leWord b 0x10) 24 8 != 0 ||
    leWord b 0x3C != crc32 (slice b 0 0x3C ++ slice b 0x40 (size - 0x40))

/-- ENTRY, WCET and MAXEV of class c. -/
def imgClass (b : List Byte) (c : Nat) : Nat × Nat × Nat :=
  let w := leWord b (0x10 + 4 * c)
  (fld w 0 12, fld w 12 12, fld w 24 8)

/-- The classes that an image serves. -/
def imgServed (b : List Byte) : List Nat := ((List.range 7).map (· + 1)).filter (fun c => (imgClass b c).2.1 != 0)

/-- The first word of a list of addresses that fails a test. -/
def firstBad (l : List Nat) (p : Nat → Bool) : Option Nat := l.find? p

/-- R312 to R315: the refusal code and the word at fault, if the image is refused for engine `e`. -/
def imgRefusal (e : Nat) (slabBad : Bool) (b : List Byte) : Option (Nat × Nat) :=
  if !hostLoads e then some (10, 0)
  else if slabBad || imgFormatBad b then some (1, 0)
  else
    let n := fld (leWord b 12) 0 13
    let code := imgCode b
    let served := imgServed b
    let entries := (0 :: served).map (fun c => (imgClass b c).1)
    let reach := reachSet code n true 13000 entries 0
    let words := maskList reach n
    let ls := loopsIn code n reach
    if !bit (leWord b 8) e || served.any (fun c => !(roleClasses e).contains c) then some (2, 0)
    else match firstBad words (fun a => wordOk (code a) && !wordRole e (code a)) with
    | some a => some (2, a)
    | none => match firstBad words (fun a => !wordOk (code a)) with
    | some a => some (3, a)
    | none => match firstBad words (fun a => match wordFlow (code a) with | .jmp t => decide (t ≤ a) | .br t => decide (t ≤ a) | _ => false) with
    | some a => some (4, a)
    | none => match firstBad words (loopBad code n ls) with
    | some a => some (5, a)
    | none => match entries.find? (fun t => ls.any (fun l => inBody l t)) with
    | some a => some (5, a)
    | none => match (callFaults code n entries).min? with
    | some a => some (6, a)
    | none => match entries.find? (fun t => decide (n ≤ t)) with
    | some a => some (7, a)
    | none => match firstBad words (fun a => (flowNext true a (wordFlow (code a))).any (fun t => decide (n ≤ t))) with
    | some a => some (7, a)
    | none =>
      let w := wAll code n reach 5
      let wc := fun c => w.getD (imgClass b c).1 0 + if c = 0 then 0 else 6
      let beyond := served.any (fun c => decide (3840 < wc 0 + wc c) || decide (3840 < wc 0 + (imgClass b c).2.2 * wc c))
      if 3840 < wc 0 || beyond then some (8, 0)
      else if (0 :: served).any (fun c => (imgClass b c).2.1 != wc c) then some (9, 0)
      else none

/-- R316: the image that the loader accepts. -/
def imgOf (b : List Byte) : Image :=
  let n := fld (leWord b 12) 0 13
  let db := fld (leWord b 12) 16 14
  let cs := (List.range 8).map (imgClass b)
  { carry := bit (leWord b 4) 16, entry := cs.map (·.1), wcet := cs.map (·.2.1), maxev := cs.map (·.2.2), crc := leWord b 0x3C,
    code := (List.range n).foldl (fun m a => SMap.set 0 m a (imgCode b a)) [],
    dat := (List.range db).foldl (fun m i => SMap.set 0 m i (byteAt b (0x40 + 4 * n + i))) [] }

/-! ### The loader (R317 to R319) -/

/-- R318: is a load under way. -/
def Loader.busy (l : Loader) : Bool := l.state == .fetch || l.state == .check || l.state == .pending

/-- R318: CANCEL. -/
def loadCancel (s : State) : State :=
  if s.loader.busy then
    let e := s.loader.eng
    (s.setEngine e { s.engine e with second := none }).setRfld .KLP_LOAD_STATUS 8 20 0 |> fun s =>
      { s with loader := { s.loader with state := .cancelled } }
  else s

/-- LOAD_CANCEL (R318). -/
def execLoadCancel (s : State) : Ans := onBar0 s .KLP_LOAD_CMD 0 loadCancel

/-- R318: the fetch: the slabs of KLP_LOAD_SLAB, as read, are taken and marked device-done; a slab outside the window or not owned by the
device makes the image unreadable. While the device may not issue DMA (R352) the fetch waits. -/
def loadFetch (s : State) (slabs : List SlabRead) : State :=
  if !s.dmaOk then s
  else
    let s := slabsSeen s slabs
    let first := s.rfld .KLP_LOAD_SLAB 0 16
    let count := s.rfld .KLP_LOAD_SLAB 16 3
    let mine := (List.range count).filterMap (fun i => slabs.find? (fun x => x.slab == first + i && s.slabOk x.slab x.flag))
    let s := slabsEnd s mine 2
    { s with loader := { s.loader with
      state := .check, bytes := mine.flatMap (fun x => slice x.data 0 4096),
      slabBad := s.loader.slabBad || decide (mine.length ≠ count) || decide (count = 0) } }

/-- R318: GO: a load begins with its fetch, for which `slabs` are read, if they are read at once. -/
def loadGo (s : State) (w : Word) (slabs : Option (List SlabRead)) : State :=
  if s.loader.busy then s.setRbit .KLP_LOAD_STATUS 3 true
  else
    let s := s.setReg .KLP_LOAD_STATUS 0
    let s := { s with loader := {
      state := .fetch, eng := fld w 0 4, atBeat := s.rbit .KLP_LOAD_BEAT_HI 31,
      beat := BitVec.ofNat 48 ((s.reg .KLP_LOAD_BEAT_LO).toNat + 2 ^ 32 * s.rfld .KLP_LOAD_BEAT_HI 0 16) } }
    match slabs with
    | some l => loadFetch s l
    | none => s

/-- A write to KLP_LOAD_CMD. -/
def loadCmdWrite (s : State) (w : Word) (slabs : Option (List SlabRead)) : State :=
  let s := if bit w 9 then loadCancel s else s
  if bit w 8 then loadGo s w slabs else s

/-- LOAD_GO (R318): KLP_LOAD_CMD with GO = 1, and what the fetch reads. -/
def execLoadGo (w : Word) (slabs : List SlabRead) (s : State) : Ans :=
  onBar0 s .KLP_LOAD_CMD 0 (fun s => loadCmdWrite s (setBit w 8 true) (some slabs))

/-- R318, R319: the check ends: a refusal, LATE, or PENDING. -/
def loadChecked (s : State) : State :=
  let l := s.loader
  match imgRefusal l.eng l.slabBad l.bytes with
  | some (code, a) =>
    let s := (s.setRfld .KLP_LOAD_STATUS 8 4 code).setRfld .KLP_LOAD_STATUS 16 12 a
    { s with loader := { l with state := .refused, bytes := [] } }
  | none =>
    if l.atBeat && passed l.beat s.beat then { s with loader := { l with state := .late, bytes := [] } }
    else
      let s := s.setEngine l.eng { s.engine l.eng with second := some (imgOf l.bytes) }
      { s with loader := { l with state := .pending, bytes := [] } }

/-- R318: what a load still in its fetch has read of its slabs in the beat that ends, if it came to that. -/
def loadRead (s : State) (slabs : Option (List SlabRead)) : State :=
  match slabs with
  | some l => if s.loader.state == .fetch then loadFetch s l else s
  | none => s

/-- LOAD_CHECK_DONE (R318): the check of the bytes that the fetch has read ends. -/
def execLoadCheckDone (s : State) : Ans := onDie s (fun s => if s.loader.state == .check then loadChecked s else s)

/-- R319: the banks of an engine change roles. -/
def engSwap (s : State) (e : Nat) (img : Image) : State :=
  let g := s.engine e
  let dat := if img.carry then
      SMap.merge (SMap.keep (fun a => decide (a < 0x1C00)) img.dat) (SMap.keep (fun a => decide (0x1C00 ≤ a)) g.dat)
    else img.dat
  (s.setEngine e { g with image := some img, second := none, dat, regM := [], regE := [], pcM := 0, pcE := 0, callM := [], callE := [],
                          loopM := [], loopE := [], run := .idle, mainHalted := true, faulted := false, dmemBad := false }).flag
    .KLP_ENG_EVENT .KLP_ENG_IRQ_EN 2 e

/-- R319: a pending image swaps at its boundary. -/
def swapDue (s : State) : State :=
  let l := s.loader
  if l.state == .pending && (!l.atBeat || passed l.beat s.beat) then
    match (s.engine l.eng).second with
    | none => s
    | some img => { engSwap s l.eng img with loader := { l with state := .done } }
  else s

end Sys2Proof.Machine
end

