-- ==== Sys2Proof/Machine/KelpieRun.lean ====
section
/-! DEFINITION. The run of an engine: whole routines by interpretation of its program memory, the shipped programs by what the
manual says of them, admission of events, the start and end of a run (R265, R266, R270, R295 to R298, R309, R319, R444, R456). -/

namespace Sys2Proof.Machine

/-! ### Interpretation (R302) -/

/-- One instruction word executed by engine `e`. -/
def kWord (s : State) (e : Nat) (w : Word) : State :=
  let d := kA w
  let a := kB w
  let i := kImm w
  if !wordOk w then faultHere s e 1
  else match kOpc w with
    | 0x00 => kNop s e
    | 0x01 => kAdd s e d a (kC w)
    | 0x02 => kSub s e d a (kC w)
    | 0x03 => kAnd s e d a (kC w)
    | 0x04 => kOr s e d a (kC w)
    | 0x05 => kXor s e d a (kC w)
    | 0x06 => kShl s e d a (kC w)
    | 0x07 => kShr s e d a (kC w)
    | 0x08 => kSar s e d a (kC w)
    | 0x09 => kSlt s e d a (kC w)
    | 0x0A => kSltu s e d a (kC w)
    | 0x0B => kMul s e d a (kC w)
    | 0x0C => kMulhu s e d a (kC w)
    | 0x10 => kAddi s e d a i
    | 0x11 => kAndi s e d a i
    | 0x12 => kOri s e d a i
    | 0x13 => kXori s e d a i
    | 0x14 => kShli s e d a i
    | 0x15 => kShri s e d a i
    | 0x16 => kSari s e d a i
    | 0x17 => kLui s e d i
    | 0x18 => kSltiu s e d a i
    | 0x19 => kExt s e d a i
    | 0x1A => kIns s e d a i
    | 0x20 => kLd s e d a i
    | 0x21 => kLdh s e d a i
    | 0x22 => kLdb s e d a i
    | 0x23 => kLdbe s e d a i
    | 0x24 => kSt s e d a i
    | 0x25 => kSth s e d a i
    | 0x26 => kStb s e d a i
    | 0x27 => kStbe s e d a i
    | 0x28 => kBeq s e d a (kT w)
    | 0x29 => kBne s e d a (kT w)
    | 0x2A => kBlt s e d a (kT w)
    | 0x2B => kBge s e d a (kT w)
    | 0x2C => kBltu s e d a (kT w)
    | 0x2D => kBgeu s e d a (kT w)
    | 0x2E => kJmp s e (kT w)
    | 0x2F => kCall s e (kT w)
    | 0x30 => kRet s e
    | 0x31 => kLoop s e d (kMax w) (kT w)
    | 0x32 => kHalt s e
    | 0x33 => kCyc s e d
    | 0x38 => if kFn w = 0 then kFltMatch s e d a (kN w) else kFltWrite s e d a (kN w)
    | 0x39 => kFwq s e d a (kN w)
    | 0x3A => if kFn w = 0 then kCmacGen s e d a (kN w) {} else kCmacVerify s e d a (kN w) {}
    | 0x3B => if kFn w = 0 then kPutSend s e d a (kN w) else kPutHandoff s e d a (kN w)
    | 0x3C => kGet s e d a (kN w)
    | 0x3D => kVrd s e d
    | 0x3E => kTime s e d (match kFn w with
        | 4 => s.beat.zeroExtend 64
        | 5 => s.time.cnt
        | f => (s.domain f).ns s.time.cnt)
    | _ => match kFn w with
        | 0 => kSys s e d .sys (sysEvent e)
        | 1 => kSys s e d .recTrig sysTrig
        | 2 => kSys s e d .sys (sysCount e)
        | 3 => kSys s e d .sys (sysMbox e)
        | _ => kSys s e d .bugle (sysBugle e)

/-- The word that engine `e` fetches is executed. -/
def kFetch (s : State) (e : Nat) : State :=
  let g := s.engine e
  match g.image with
  | none => s
  | some img => kWord s e (SMap.get 0 img.code g.pc)

/-- The running routine of engine `e` goes on to HALT, a fault, or cycle `lim` of the run window; every instruction takes a cycle. -/
def kUntil (e : Nat) (ev : Bool) (lim : Nat) : Nat → State → State
  | 0, s => s
  | fuel + 1, s =>
    let g := s.engine e
    if s.engRuns e && g.inEvent == ev && decide (g.used + g.idle < lim) then kUntil e ev lim fuel (kFetch s e) else s

/-- R295: the cycle of the run window at the present instant: KELP cycles of 2 ns since the beat began, less the 80 that start the run. -/
def State.runCycle (s : State) : Nat := min 3840 ((s.time.cnt - s.time.beatAt).toNat * 8 / 5 - 80)

/-- R296, R297: engine `e` reaches the present instant: its main routine has gone on so far, and the rest of the time it was idle. -/
def engCatch (s : State) (e : Nat) : State :=
  let s := if (s.engine e).run == .main then kUntil e false s.runCycle 3840 s else s
  let g := s.engine e
  if g.run == .idle then s.setEngine e { g with idle := max g.idle (s.runCycle - g.used) } else s

/-! ### The shipped gateway program (R265, R266, R270, R287, R288) -/

/-- R264, R266: AGE in LEG cycles of 12.5 ns since acceptance, saturating. -/
def State.age (s : State) (at_ : Wide) : Nat := min 65535 ((s.time.cnt - at_).toNat * 32 / 125)

/-- R266: the stamp of a frame with an AGE, in ns. -/
def State.busStamp (s : State) (age : Nat) : Nat :=
  (BitVec.ofNat 64 ((2 * ((s.domain (s.rfld .GW_CTRL 1 2)).ns s.time.cnt).toNat + 2 ^ 65 - 25 * age) / 2)).toNat

/-- R287, R291: a refused frame is counted on its source; the first AUTH_FAIL of a source in a beat is recorded. -/
def authRefuse (s : State) (src entry : Nat) (f : BusFrame) (c : GwsrcCtr) : State :=
  let s := s.bump (.gwsrc src c)
  if c = .AUTH_FAIL ∧ s.rbit .GW_CTRL 3 ∧ !maskBit s.gw.authRec src then
    { s with gw := { s.gw with authRec := maskSet s.gw.authRec src } }.emit 0x63 src entry [BitVec.ofNat 32 f.id]
  else s

/-- R270 steps 4 to 7 for a frame that matched entry `i`. -/
def gwForward (s : State) (e : Nat) (f : BusFrame) (src port stamp i : Nat) (ent : List Word) (verified : Bool) (rep : CipherReport) : State :=
  let x := busAllowed s f verified src port (maskClr (wfld ent 3 0 28) src)
  if x.1 = 0 then x.2
  else
    let f := if bit (wd ent 4) 13 then authStrip f ent else f
    let ent := match x.2.answering with | some b => (x.2.plane b).rd .filter i | none => ent
    if bit (wd ent 4) 12 then
      match authGen x.2 e f i ent rep with
      | (.inl c, s) => s.bump (.gwsrc src c)
      | (.inr f, s) => (busSendAll s x.1 f stamp (wfld ent 4 0 5)).2
    else (busSendAll x.2 x.1 f stamp (wfld ent 4 0 5)).2

/-- R270: a received frame of source `src`, accepted AGE cycles ago. `rep` and `rep1` say what checking a tag and making one meet. -/
def gwCarry (s : State) (e : Nat) (f : BusFrame) (src port wire age : Nat) (rep rep1 : CipherReport) : State :=
  let s := if age = 65535 then s.bump (.gwsrc src .STAMP_LATE) else s
  let stamp := s.busStamp age
  match s.answering with
  | none => filterGap s e
  | some b => match (s.plane b).fltFind f src wire with
    | none => s.bump (.gwsrc src .NO_ROUTE)
    | some (i, ent) =>
      if bit (wd ent 4) 15 then handOff s { bytes := frameItem f src 0 stamp i false wire, src, port }
      else if bit (wd ent 4) 11 then
        match authVerify s e f i ent rep with
        | (some c, s) => authRefuse s src i f c
        | (none, s) => gwForward s e f src port stamp i ent true rep1
      else gwForward s e f src port stamp i ent false rep1

/-! ### Event queues (R265, R285, R298) -/

/-- The endpoint of K0 to K4 whose oldest waiting frame was accepted first: CAN 0–7, LIN 8–11. -/
def State.rxNext (s : State) (e : Nat) : Option (Nat × RxEnt) :=
  let ends := if e < 4 then [2 * e, 2 * e + 1] else [8, 9, 10, 11]
  let q := fun k => if k < 8 then (s.can k).rx else (s.linc (k - 8)).rx
  (ends.filterMap (fun k => (q k).head?.map (fun x => (k, x)))).foldl (fun (b : Option (Nat × RxEnt)) x =>
    match b with
    | none => some x
    | some y => if (s.time.cnt - y.2.at_).toNat < (s.time.cnt - x.2.at_).toNat then some x else some y) none

/-- The oldest waiting frame of an endpoint is taken. -/
def rxTake (s : State) (k : Nat) : State :=
  if k < 8 then s.setCan k { s.can k with rx := (s.can k).rx.drop 1 }
  else s.setLin (k - 8) { s.linc (k - 8) with rx := (s.linc (k - 8)).rx.drop 1 }

/-- R304: the hook item of a request. -/
def State.hookItem (s : State) (rq : HookReq) : List Byte :=
  match s.heldOf rq.frame with
  | none => []
  | some h =>
    let mask := rq.zones.foldl (fun m z => maskSet m z.1) 0
    let szone := match h.dec with | some d => d.szone | none => 0
    let zone := fun z => match rq.zones.find? (fun x => x.1 == z) with
      | some x => leBytes (x.2.1 % 2048 + x.2.2 * 2 ^ 16) 4
      | none => leBytes 0 4
    slice (h.key.getD []) 0 64 ++ leBytes (szone + mask * 2 ^ 16) 4 ++ leBytes (h.bytes.length % 16384) 4 ++
      slice ((List.range 16).flatMap zone) 0 184 ++ slice h.bytes 0 256

/-- The next pending event of class `c` of engine `e`, taken from its queue. -/
def takeEvent (s : State) (e c : Nat) : Option Item × State :=
  let g := s.engine e
  match c with
  | 1 =>
    if 4 < e then (none, s)
    else match s.rxNext e with
      | none => (none, s)
      | some (k, x) => (some { bytes := frameItem x.frame k (s.age x.at_) 0 0 false 0, src := k }, rxTake s k)
  | 2 =>
    if e = 5 ∨ e = 6 then
      match nextAcf (e == 6) 8192 s with
      | (some (f, t, port, wire), s) => (some { bytes := frameItem f (12 + t) 0 0 0 false wire, src := 12 + t, port }, s)
      | (none, s) => (none, s)
    else (none, s)
  | 3 =>
    match g.hookPart with
    | [] => (none, s)
    | rq :: t =>
      if rq.queued = s.beat then (none, s)
      else (some { bytes := s.hookItem rq, hook := some rq }, s.setEngine e { g with hookPart := t, hookOpen := g.hookOpen ++ [rq] })
  | 4 => match g.handoff with | [] => (none, s) | x :: t => (some x, s.setEngine e { g with handoff := t })
  | 5 => match g.bugle with | [] => (none, s) | x :: t => (some x, s.setEngine e { g with bugle := t })
  | 6 => match g.capture with | [] => (none, s) | x :: t => (some x, s.setEngine e { g with capture := t })
  | 7 => match g.mailbox with | [] => (none, s) | x :: t => (some x, s.setEngine e { g with mailbox := t })
  | _ => (none, s)

/-! ### Admission (R297) -/

/-- R297: may an event of class `c` be admitted now, but for its being pending. -/
def Engine.admits (g : Engine) (img : Image) (c : Nat) : Bool :=
  let w := img.wcet.getD c 0
  let w0 := if g.mainHalted then 0 else img.wcet.getD 0 0 - g.usedMain
  let m := img.maxev.getD c 0
  (img.shipped || (w != 0 && decide (w + w0 ≤ g.left))) && (m == 0 || decide (SMap.get 0 g.admitted c < m))

/-- R297: the admissible event of the lowest class, taken. -/
def admitNext (s : State) (e : Nat) (img : Image) : List Nat → Option (Nat × Item) × State
  | [] => (none, s)
  | c :: t =>
    if (s.engine e).admits img c then
      match takeEvent s e c with
      | (some it, s) => (some (c, it), s)
      | (none, s) => admitNext s e img t
    else admitNext s e img t

/-- May engine `e` admit an event: it runs a program, no event routine is running, and its run has not ended. -/
def State.mayAdmit (s : State) (e : Nat) : Bool :=
  let g := s.engine e
  g.en && !g.faulted && !g.halted && !g.inEvent && !g.ended

/-- An event routine is entered: bank E, KP, KV and the verdict cleared (R296, R307, R310). -/
def enterEvent (s : State) (e c : Nat) (it : Item) (entry : Nat) : State :=
  let g := s.engine e
  s.setEngine e { g with run := .event c, item := some it, pcE := entry, callE := [], loopE := [], kp := 0, kv := false, answered := false,
                         used := g.used + 6, admitted := SMap.upd 0 g.admitted c (· + 1) }

/-- The shipped program's routine for an event: the gateway's of R270, K7's empty signal routine (R265), Bugle's of R444 and
R456. -/
def shippedRoutine (s : State) (e c : Nat) (it : Item) (rep rep1 : CipherReport) : State :=
  match c with
  | 1 => gwCarry s e (itemFrame it.bytes) it.src 0 0 (fld (leWord it.bytes 0) 16 16) rep rep1
  | 2 => gwCarry s e (itemFrame it.bytes) it.src it.port (itemWire it.bytes) 0 rep rep1
  | 4 => s.bump (.gwsrc it.src .NO_ROUTE)
  | 5 =>
    let w := leWord it.bytes 0
    if e = 13 ∧ fld w 0 4 = 1 then
      (maskList s.bug.tc10Wait 16).foldl (fun s p => bugleRequest s 13 (BitVec.ofNat 32 (4 + p * 256))) s
    else if e = 13 ∧ fld w 0 4 = 7 ∧ s.bug.seq = .prepare then bugleRequest s 13 (BitVec.ofNat 32 (4 + fld w 12 5 * 256))
    else s
  | _ => s

/-- The engine admits one event and runs its routine to HALT. The shipped gateway program serves frames while GW_CTRL.EN = 1. -/
def runEvent (s : State) (e : Nat) (rep rep1 : CipherReport) : State :=
  match (s.engine e).image with
  | none => s
  | some img =>
    if !s.mayAdmit e || (img.shipped && decide (e ≤ 6) && !s.rbit .GW_CTRL 0) then s
    else match admitNext (if img.shipped then s else engCatch s e) e img [1, 2, 3, 4, 5, 6, 7] with
      | (none, s) => s
      | (some (c, it), s) =>
        if img.shipped then
          let g := s.engine e
          shippedRoutine (s.setEngine e { g with admitted := SMap.upd 0 g.admitted c (· + 1) }) e c it rep rep1
        else kUntil e true 3840 3840 (enterEvent s e c it (img.entry.getD c 0))

/-- EVENT_ROUTINE (R297). -/
def execEventRoutine (x : EventRun) (s : State) : Ans := onDie s (fun s => runEvent s x.e x.reps.rep x.reps.rep1)

/-! ### End and start of a run (R295, R297, R319, R320) -/

/-- R297: does a class of an engine end the run with a pending event. -/
def State.stillPending (s : State) (e c : Nat) : Bool :=
  let g := s.engine e
  match c with
  | 1 => decide (e ≤ 4) && (s.rxNext e).isSome
  | 2 => (e == 5 || e == 6) && s.gw.rxBuf.any (fun x => decide (8 ≤ x.tun) == (e == 6))
  | 3 => g.hookPart.any (fun r => r.queued != s.beat)
  | 4 => !g.handoff.isEmpty
  | 5 => !g.bugle.isEmpty
  | 6 => !g.capture.isEmpty
  | 7 => !g.mailbox.isEmpty
  | _ => false

/-- The run of one engine ends: its main routine has gone on to HALT, a routine still running is an OVERRUN fault, and the counts
and busy time are written back. The cycles of a shipped program are not in the manual (log entry 1). -/
def engRunEnd (s : State) (e : Nat) : State :=
  let g := s.engine e
  match g.image with
  | none => s
  | some img =>
    if g.ended || !g.en || g.faulted || g.halted then s
    else
      let s := if img.shipped then s.setEngine e { g with run := .idle, mainHalted := true }
        else kUntil e false 3840 3840 (kUntil e true 3840 3840 s)
      let s := if (s.engine e).run != .idle then faultHere s e 5 else s
      let n := ((List.range 8).filter (s.stillPending e)).length
      let s := s.bump (.klp e .DEFERRED) n
      let s := if n = 0 then s else s.flag .KLP_ENG_EVENT .KLP_ENG_IRQ_EN 3 e
      let x := s.fresh
      let busy := if img.shipped then x.1.toNat % 3841 else min (s.engine e).used 3840
      let s := (if img.shipped then x.2 else s).setReg .KLP_ENG_BUSY (BitVec.ofNat 32 busy) e
      let s := if s.rfld .KLP_ENG_MAX_BUSY 0 12 e < busy then s.setReg .KLP_ENG_MAX_BUSY (BitVec.ofNat 32 busy) e else s
      s.setEngine e { s.engine e with ended := true }

/-- R295: cycles 3,920 to 3,999 of every engine's beat. -/
def kelpieRunEnd (s : State) : State := (List.range 16).foldl engRunEnd s

/-- KELPIE_RUN_END (R295). -/
def execKelpieRunEnd (s : State) : Ans := onDie s kelpieRunEnd

/-- R295, R296: the run of one engine starts: counters cleared, main routine from its entry. -/
def engRunStart (s : State) (e : Nat) : State :=
  let s := engBoundary s e
  let g := s.engine e
  let g := { g with ended := false, used := 0, idle := 0, usedMain := 0, admitted := [] }
  s.setEngine e (match g.image with
    | none => g
    | some img =>
      if g.en && !g.faulted && !g.halted then
        { g with run := .main, mainHalted := false, pcM := img.entry.getD 0 0, callM := [], loopM := [] }
      else g)

/-- R20 step 6: swaps, restarts and the start of every engine's run. -/
def kelpieRunStart (s : State) : State := (List.range 16).foldl engRunStart (swapDue s)

/-! ### Shipped images and the renewal of freshness values (R265, R288, R293) -/

/-- R293: MAXEV of a shipped image's class. -/
def shippedMaxev (e c : Nat) : Nat :=
  if !(roleClasses e).contains c then 0
  else if e ≤ 4 then 12 else if e ≤ 6 then 32 else if e = 7 then (if c = 4 then 16 else 0) else 8

/-- R314, R324: WCET of class `c` of a shipped image: 0 for a class that it does not serve, else a value within the bounds of R314 that the
manual does not give (log entry 1). -/
def shippedWcet (hash : List Byte) (e c : Nat) : Nat :=
  let v := fun k => (Config.shippedWcet hash e k).toNat
  let w0 := v 0 % 3841
  if c = 0 then w0 else if shippedMaxev e c = 0 then 0 else v c % ((3840 - w0) / shippedMaxev e c + 1)

/-- The program of a firmware body, named by its hash, for an engine; its code and worst cases are not in the manual. -/
def shippedImage (hash : List Byte) (e : Nat) : Image :=
  { shipped := true, carry := false, entry := List.replicate 8 0, wcet := (List.range 8).map (shippedWcet hash e), maxev := (List.range 8).map (shippedMaxev e),
    crc := Config.shippedCrc hash e, code := [], dat := [] }

/-- R317: Shepherd loads the firmware images at start-up: K0 to K7, K12 and K13. -/
def loadShipped (s : State) (hash : List Byte) : State :=
  ((List.range 8) ++ [12, 13]).foldl (fun s e => s.setEngine e { s.engine e with image := some (shippedImage hash e) }) s

/-- FV_RENEWAL_DONE (R288): the increment of counter 31 completes; the boundary after it sets every TX_FV to 0. -/
def execFvRenewalDone (s : State) : Ans :=
  onDie s (fun s =>
    if s.gw.renewing && !s.gw.renewed then { ctrInc s 31 with gw := { s.gw with renewed := true } } else s)

/-- R288: the renewal at a boundary: TX_FV of every entry returns to 0 after the increment, in a switchover gap in the plane that answers,
or a renewal starts. -/
def renewBoundary (s : State) : State :=
  let zero := fun (p : Plane) => (p.ents .filter).foldl (fun p e => p.wr (Space.filter.key e.1) (wset e.2 6 0)) p
  if s.gw.renewed then
    let s := match s.actId, s.answering with
      | none, none => s
      | none, some b => s.setPlane b (zero (s.plane b))
      | some b, _ => ((s.plane b).ents .filter).foldl (fun s (x : Nat × List Word) => s.mark (Space.filter.key x.1) true 44 false) (s.setPlane b (zero (s.plane b)))
    { s with twin := { s.twin with fresh := s.twin.fresh.map (fun (x : Nat × List Word) => (x.1, wset x.2 1 0)) },
             gw := { s.gw with renewing := false, renewed := false, fvSpent := [] } }
  else if !s.gw.renewing then
    match s.answering with
    | none => s
    | some b =>
      if ((s.plane b).ents .filter).any (fun e => decide (0xF0000000 ≤ (wd e.2 6).toNat)) then
        { s with gw := { s.gw with renewing := true } }
      else s
  else s

end Sys2Proof.Machine
end

