-- ==== Sys2Proof/Machine/Hash.lean ====
section
/-! DEFINITION. The digests and the signature check that chapter 16 names by their standards: SHA-256 and SHA-384 (FIPS 180-4)
and ECDSA on the curve P-384 (FIPS 186-4). The manual names the standards and does not spell them out (PRESUMED, log
entry 75). -/

namespace Sys2Proof.Machine

/-! ### SHA-2 (FIPS 180-4) -/

/-- The first `n` primes. -/
def primes (n : Nat) : List Nat :=
  ((List.range 410).filter (fun p => decide (2 ≤ p) && (List.range 21).all (fun d => decide (d < 2) || p == d || p % d != 0))).take n

/-- The largest `r` below 2^n with `f r` at most `v`, by bits. -/
def rootBits (f : Nat → Nat) (v : Nat) : Nat → Nat → Nat
  | 0, r => r
  | n + 1, r => rootBits f v n (if f (r + 2 ^ n) ≤ v then r + 2 ^ n else r)

/-- The first `w` bits of the fractional part of the square root of `p`. -/
def sqrtFrac (w p : Nat) : Nat := rootBits (fun r => r * r) (p * 2 ^ (2 * w)) (w + 6) 0 % 2 ^ w

/-- The first `w` bits of the fractional part of the cube root of `p`. -/
def cbrtFrac (w p : Nat) : Nat := rootBits (fun r => r * r * r) (p * 2 ^ (3 * w)) (w + 4) 0 % 2 ^ w

/-- A member of the SHA-2 family: word width, rounds, and the rotations of its six functions; the last of the two message
functions is a shift. -/
structure Sha where
  w : Nat
  rounds : Nat
  s0 : Nat × Nat × Nat
  s1 : Nat × Nat × Nat
  m0 : Nat × Nat × Nat
  m1 : Nat × Nat × Nat
deriving DecidableEq, Repr

/-- The 32-bit family. -/
def sha2x32 : Sha := { w := 32, rounds := 64, s0 := (2, 13, 22), s1 := (6, 11, 25), m0 := (7, 18, 3), m1 := (17, 19, 10) }

/-- The 64-bit family. -/
def sha2x64 : Sha := { w := 64, rounds := 80, s0 := (28, 34, 39), s1 := (14, 18, 41), m0 := (1, 8, 7), m1 := (19, 61, 6) }

/-- A word rotated right. -/
def Sha.rotr (h : Sha) (x k : Nat) : Nat := (x >>> k ||| x <<< (h.w - k)) % 2 ^ h.w

/-- Three rotations combined. -/
def Sha.sig (h : Sha) (r : Nat × Nat × Nat) (x : Nat) : Nat := h.rotr x r.1 ^^^ h.rotr x r.2.1 ^^^ h.rotr x r.2.2

/-- Two rotations and a shift combined. -/
def Sha.msig (h : Sha) (r : Nat × Nat × Nat) (x : Nat) : Nat := h.rotr x r.1 ^^^ h.rotr x r.2.1 ^^^ (x >>> r.2.2)

/-- The message schedule of a block of 16 words. -/
def Sha.schedule (h : Sha) (ws : List Nat) : List Nat :=
  ((List.range (h.rounds - 16)).foldl (fun (a : List Nat) _ =>
    -- the schedule is held last word first
    ((h.msig h.m1 (a.getD 1 0) + a.getD 6 0 + h.msig h.m0 (a.getD 14 0) + a.getD 15 0) % 2 ^ h.w) :: a) ws.reverse).reverse

/-- One block into the hash value. -/
def Sha.block (h : Sha) (ks : List Nat) (hv : List Nat) (ws : List Nat) : List Nat :=
  let m := 2 ^ h.w
  let r := (List.zip ks (h.schedule ws)).foldl (fun (v : List Nat) kw =>
    match v with
    | [a, b, c, d, e, f, g, x] =>
      let t1 := x + h.sig h.s1 e + ((e &&& f) ^^^ ((m - 1 - e) &&& g)) + kw.1 + kw.2
      let t2 := h.sig h.s0 a + ((a &&& b) ^^^ (a &&& c) ^^^ (b &&& c))
      [(t1 + t2) % m, a, b, c, (d + t1) % m, e, f, g]
    | _ => v) hv
  List.zipWith (fun a b => (a + b) % m) hv r

/-- The message with its padding, in blocks of 16 words. -/
def Sha.words (h : Sha) (msg : List Byte) : List (List Nat) :=
  let nb := h.w / 8
  let bl := 16 * nb
  let z := (bl - (msg.length + 1 + 2 * nb) % bl) % bl
  let p := msg ++ [0x80] ++ List.replicate z 0 ++ beBytes (8 * msg.length) (2 * nb)
  (List.range (p.length / bl)).map (fun i => let b := (p.drop (bl * i)).take bl; (List.range 16).map (fun j => beNat b (nb * j) nb))

/-- The digest from an initial hash value. -/
def Sha.digest (h : Sha) (init : List Nat) (msg : List Byte) : List Byte :=
  let ks := (primes h.rounds).map (cbrtFrac h.w)
  (((h.words msg).foldl (h.block ks) init).map (fun x => beBytes x (h.w / 8))).flatten

/-- SHA-256. -/
def sha256 (msg : List Byte) : List Byte := sha2x32.digest ((primes 8).map (sqrtFrac 32)) msg

/-- SHA-384 (R462). -/
def sha384 (msg : List Byte) : List Byte := (sha2x64.digest (((primes 16).drop 8).map (sqrtFrac 64)) msg).take 48

/-- R483: the first 8 bytes of SHA-256 as a little-endian number. -/
def sha256Low (msg : List Byte) : Wide := BitVec.ofNat 64 (leNat (sha256 msg) 0 8)

/-! ### ECDSA on P-384 (FIPS 186-4) -/

/-- The field of P-384. -/
def p384 : Nat := 2 ^ 384 - 2 ^ 128 - 2 ^ 96 + 2 ^ 32 - 1

/-- The order of P-384. -/
def n384 : Nat := 0xFFFFFFFFFFFFFFFFFFFFFFFFFFFFFFFFFFFFFFFFFFFFFFFFC7634D81F4372DDF581A0DB248B0A77AECEC196ACCC52973

/-- The base point of P-384. -/
def g384 : Nat × Nat :=
  (0xAA87CA22BE8B05378EB1C71EF320AD746E1D3B628BA79B9859F741E082542A385502F25DBF55296C3A545E3872760AB7,
   0x3617DE4A96262C6F5D9E98BF9292DC29F8F41DBD289A147CE9DA3113B5F0B8C00A60B1CE1D7E819D7A431D7C90EA0E5F)

/-- A power modulo `m`, over the `n` low bits of the exponent from the top. -/
def powMod (m b e : Nat) : Nat → Nat → Nat
  | 0, r => r
  | n + 1, r => powMod m b e n (let q := r * r % m; if e.testBit n then q * b % m else q)

/-- The inverse modulo a prime of 384 bits. -/
def invMod (m a : Nat) : Nat := powMod m (a % m) (m - 2) 384 1

/-- The sum of two points; none is the point at infinity. -/
def ecAdd (a b : Option (Nat × Nat)) : Option (Nat × Nat) :=
  match a, b with
  | none, q => q
  | p, none => p
  | some (x1, y1), some (x2, y2) =>
    if x1 = x2 ∧ (y1 + y2) % p384 = 0 then none
    else
      let l := if x1 = x2 then (3 * x1 * x1 + (p384 - 3)) * invMod p384 (2 * y1) % p384
        else (y2 + p384 - y1) * invMod p384 (x2 + p384 - x1) % p384
      let x := (l * l + 2 * p384 - x1 - x2) % p384
      some (x, (l * (x1 + p384 - x) + p384 - y1) % p384)

/-- A multiple of a point, over the `n` low bits of the factor from the top. -/
def ecMul (k : Nat) (p : Option (Nat × Nat)) : Nat → Option (Nat × Nat) → Option (Nat × Nat)
  | 0, r => r
  | n + 1, r => ecMul k p n (let q := ecAdd r r; if k.testBit n then ecAdd q p else q)

/-- R462: does the signature (r, then s, 48 bytes each, most significant byte first) verify over a 48-byte digest under a public
key. -/
def ecdsaOk (key : Nat × Nat) (digest sig : List Byte) : Bool :=
  let r := beNat sig 0 48
  let s := beNat sig 48 48
  if r = 0 ∨ n384 ≤ r ∨ s = 0 ∨ n384 ≤ s then false
  else
    let w := invMod n384 s
    let u1 := beNat digest 0 48 * w % n384
    let u2 := r * w % n384
    match ecAdd (ecMul u1 (some g384) 384 none) (ecMul u2 (some key) 384 none) with
    | none => false
    | some (x, _) => x % n384 == r

end Sys2Proof.Machine
end

