-- ==== Sys2Proof/Machine/TblCmds.lean ====
section
/-! DEFINITION. The table commands (R23, R99 to R103, R107, R108, R117 to R126, R142, R153, R160, R161, R244, R269, R365). -/

namespace Sys2Proof.Machine

/-- Outcome of a table command: TBL_STATUS.CODE, MOVES, the TBL_INDEX and the entry that it returns. -/
structure TblRes where
  code : Nat := 0
  moves : Nat := 0
  index : Option Nat := none
  data : Option (List Word) := none
deriving DecidableEq, Repr

/-- A table command as issued: OP, TABLE, UPDATE, BY_INDEX and STATE_RESET as in TBL_CMD; TBL_INDEX; TBL_FILTER; the data words. -/
structure TblOp where
  cmd : Word
  index : Word
  filter : Word
  data : List Word
deriving DecidableEq, Repr

/-- OP of a command. -/
def TblOp.op (o : TblOp) : Nat := fld o.cmd 0 4
/-- TABLE of a command. -/
def TblOp.table (o : TblOp) : Nat := fld o.cmd 4 4
/-- TBL_INDEX.INDEX of a command. -/
def TblOp.idx (o : TblOp) : Nat := fld o.index 0 16

/-! ### The tables as commands see them -/

/-- Number of entries of a table (R81, R104, R114, R116, R120, R122, R138, R143, R267). -/
def State.tblSize (s : State) (t : Nat) : Nat :=
  match t with
  | 0 => s.fdbSize | 1 => 4096 | 2 => 4096 | 3 => 1024 | 4 => 4096 | 5 => 2048 | 6 => 8192 | 7 => 1024 | _ => 0

/-- Words of an entry of a table. -/
def tblWords (t : Nat) : Nat :=
  match t with
  | 0 => 3 | 1 => 13 | 2 => 3 | 3 => 1 | 4 => 8 | 5 => 16 | 6 => 11 | 7 => 9 | _ => 0

/-- R160: the memory that rule commands act on: the prepared bank. -/
def State.prepBank (s : State) : Space := ruleSpace ((s.ruleEpoch + 1) % 2)

/-- R160, R161: the memory that READ and NEXT of table 5 return. -/
def State.readBank (s : State) : Space :=
  if s.rbit .FW_DBG 0 || s.ruleCopy != 0 then ruleSpace s.ruleBank else s.prepBank

/-- The memory that READ and NEXT of a table return. -/
def State.tblSpace (s : State) (t : Nat) : Space :=
  match t with
  | 0 => .fdb | 1 => .stream | 2 => .vlan | 3 => .group | 4 => .route | 5 => s.readBank | 6 => .conn | _ => .filter

/-- Is an entry of a table valid. -/
def tblValid (t : Nat) (e : List Word) : Bool :=
  match t with
  | 0 => fdbValid e | 1 => strValid e | 2 => bit (wd e 0) 24 | 3 => bit (wd e 0) 24 | 4 => rtValid e
  | 5 => bit (wd e 15) 30 | 6 => ctValid e | _ => bit (wd e 1) 30

/-- An entry of a table at its full number of words. -/
def State.entry (s : State) (t i : Nat) : List Word :=
  let e := s.tget (s.tblSpace t) i
  (List.range (tblWords t)).map (wd e)

/-! ### READ, SEARCH and NEXT -/

/-- READ (R126). -/
def tblReadOp (s : State) (o : TblOp) : TblRes :=
  if s.tblSize o.table = 0 then { code := 6 }
  else if s.tblSize o.table ≤ o.idx then { code := 5 }
  else { data := some (s.entry o.table o.idx) }

/-- The index at which a key is present, for the tables that serve keys. -/
def State.keyFind (s : State) (t : Nat) (d : List Word) : Option Nat :=
  match t with
  | 0 => s.fdbFind (fdbFid d) (fdbMac d)
  | 1 => s.strFind (d.take 6) (strKt d)
  | 4 => s.rtFind d
  | 6 => s.ctFind d
  | _ => none

/-- SEARCH (R126). -/
def tblSearchOp (s : State) (o : TblOp) : TblRes :=
  if o.table = 0 ∨ o.table = 1 ∨ o.table = 4 then
    match s.keyFind o.table o.data with
    | some i => { index := some i, data := some (s.entry o.table i) }
    | none => { code := 1 }
  else { code := 6 }

/-- TBL_FILTER (R126): does an FDB entry pass. -/
def State.fdbPass (s : State) (w : Word) (i : Nat) (e : List Word) : Bool :=
  (!bit w 5 || (!fdbMc e && fdbDest e == fld w 0 5)) && (!bit w 6 || !fdbStatic e) && (!bit w 7 || fdbStatic e) &&
  (!bit w 8 || s.oldPlaced i e) && (!bit w 21 || fdbFid e == fld w 9 12)

/-- NEXT (R126): the lowest valid index from TBL_INDEX on that passes. -/
def tblNextOp (s : State) (o : TblOp) : TblRes :=
  if s.tblSize o.table = 0 then { code := 6 }
  else
    match (s.act.ents (s.tblSpace o.table)).find? (fun x =>
      decide (o.idx ≤ x.1) && tblValid o.table x.2 && (o.table != 0 || (!s.act.stale x.2 && s.fdbPass o.filter x.1 x.2))) with
    | some x => { index := some x.1, data := some (s.entry o.table x.1) }
    | none => { code := 1 }

/-! ### WRITE -/

/-- R82: field values of an FDB entry that do not agree. -/
def fdbBad (e : List Word) : Bool :=
  (bit (wd e 2) 12 && !fdbStatic e) || (!fdbMc e && decide (24 ≤ fdbDest e))

/-- R82: an FDB entry as software gives it, with GEN and SEEDSEL written by the device and reserved bits zero. -/
def State.fdbForm (s : State) (d : List Word) : List Word :=
  let w2 := wsetFld [wd d 0, setBit (wd d 1) 31 false, setFld (wd d 2) 30 2 0] 2 17 4 (if fdbMc d then 0 else s.act.genOf (fdbDest d))
  wsetFld w2 2 29 1 (if s.act.epoch then 1 else 0)

/-- WRITE on the FDB, with VALID as given: the key must hash to the slot's bucket or the index lie in the stash. -/
def fdbWrite (s : State) (i : Nat) (d : List Word) : TblRes × State :=
  if fdbValid d && fdbBad d then ({ code := 4 }, s)
  else
    let t := s.fdbTab 0
    let ok := decide (s.fdbStash ≤ i) || i / 4 == t.at 0 d / 4 || i / 4 == t.at 1 d / 4
    if !ok then ({ code := 5 }, s)
    else ({}, migrationEnd (s.tset .fdb i (s.fdbForm d) true 20 true) true)

/-- WRITE on the route table (R117, R121 to R123): the lengths are counted without the entry that is overwritten; an entry with VALID = 0
breaks no order and brings no length. -/
def rtWrite (s : State) (i : Nat) (d : List Word) : TblRes × State :=
  if rtBad d then ({ code := 4 }, s)
  else match s.part with
    | .am7240 => if !rtValid d || s.rtOrder i i d then ({}, s.tset .route i d true 40 true) else ({ code := 7 }, s)
    | .am7220 =>
      if !((s.rtTab.cands d).contains i) then ({ code := 5 }, s)
      else if rtValid d && (s.setAct (s.act.wr (Space.route.key i) [])).rtLenFull d then ({ code := 8 }, s)
      else ({}, s.tset .route i d true 40 true)

/-- R481, R161: rule commands wait for the bank copy and for a commit request to end. -/
def State.bankBusy (s : State) : Bool := s.ruleCopy != 0 || s.upd.cfg.isSome

/-- R269: is a WRITE to table 7 refused with BAD_ENTRY. -/
def fltBad (e : List Word) : Bool :=
  let auth := bit (wd e 4) 11 || bit (wd e 4) 12
  let n := wfld e 4 28 3 + 1 + (wfld e 5 0 4 + 1)
  let k := wfld e 0 30 2
  (auth && ((k == 0 && decide (64 < n)) || (k == 1 && decide (32 < n)) || k == 2)) ||
  (bit (wd e 1) 30 && k == 3) ||
  bit (wd e 1) 31 || wfld e 2 28 4 != 0 || wfld e 3 28 4 != 0 || bit (wd e 4) 31 || wfld e 5 5 27 != 0

/-- The state words of a filter entry as the freshness mirror holds them (R289). -/
def fltState (e : List Word) : List Word := [wd e 5 &&& 0x10, wd e 6, wd e 7, wd e 8]

/-- WRITE on table 7 (R269, R289). -/
def fltWrite (s : State) (i : Nat) (d : List Word) (anew : Bool) : TblRes × State :=
  let d := (List.range 9).map (wd d)
  if fltBad d then ({ code := 4 }, s)
  else
    let old := s.tget .filter i
    let keep := !anew && tblValid 7 old && (old.take 3 == d.take 3)
    let e := if keep then wset (wset (wset (wsetFld d 5 4 1 (wfld old 5 4 1)) 6 (wd old 6)) 7 (wd old 7)) 8 (wd old 8) else d
    let s := s.tset .filter i e true 44 true
    ({}, if keep then s
      else { s with twin := { s.twin with fresh := SMap.set [] s.twin.fresh i (fltState e) },
                    gw := { s.gw with fvSpent := s.gw.fvSpent.filter (· != i) } })

/-- R153, R164: a connection slot is cleared by a command; a connection removed is counted. -/
def ctRemove (s : State) (i : Nat) : State :=
  let s' := s.tset .conn i [] true 52 true
  if ctValid (s.tget .conn i) then s'.bump (.fwMisc .CT_REMOVED) else s'

/-- WRITE (R126). -/
def tblWriteOp (s : State) (o : TblOp) : TblRes × State :=
  let i := o.idx
  if s.tblSize o.table = 0 then ({ code := 6 }, s)
  else if s.tblSize o.table ≤ i then ({ code := 5 }, s)
  else match o.table with
    | 0 => fdbWrite s i (o.data.take 3)
    | 1 =>
      let d := (List.range 13).map (wd o.data)
      if !strValid d then ({}, if strValid (s.tget .stream i) then strRemove s i true else s)
      else let x := strWrite s i d (bit o.cmd 10); ({ code := x.1, moves := x.2.1 }, x.2.2)
    | 2 => ({}, s.tset .vlan i [wd o.data 0 &&& 0x3FFFFFF, wd o.data 1 &&& 0xFFFFFF, wd o.data 2 &&& 0x7FFF] true 20 true)
    | 3 => ({}, s.tset .group i [wd o.data 0 &&& 0x1FFFFFF] true 20 true)
    | 4 => rtWrite s i ((List.range 8).map (wd o.data))
    | 5 =>
      let d := (List.range 16).map (wd o.data)
      if s.bankBusy then ({ code := 13 }, s)
      else if ruleBad d then ({ code := 4 }, s)
      else ({}, s.tset s.prepBank i d true 72 true)
    | 6 => if ctValid o.data then ({ code := 4 }, s) else ({}, ctRemove s i)
    | _ => fltWrite s i o.data (bit o.cmd 10)

/-! ### INSERT and DELETE -/

/-- INSERT on the FDB (R86, R102, R126). -/
def fdbInsert (s : State) (d : List Word) (update : Bool) : TblRes × State :=
  let e := s.fdbForm d
  let put (s : State) : TblRes × State := match (s.fdbTab 0).place s.act e true with
    | some (ws, i, mv) => ({ moves := mv, index := some i }, writes s .fdb ws 20 true)
    | none => ({ code := 3 }, s)
  if !fdbValid d || fdbBad d then ({ code := 4 }, s)
  else match s.fdbFind (fdbFid d) (fdbMac d) with
    | none => put s
    | some i =>
      if !update then ({ code := 2, index := some i }, s)
      else if s.oldPlaced i (s.tget .fdb i) then
        let x := put s
        if x.1.code = 0 then (x.1, fdbClear x.2 i true) else x
      else ({ index := some i }, s.tset .fdb i e true 20 true)

/-- INSERT on the stream table (R108, R126): the lowest free handle. -/
def strInsert (s : State) (d : List Word) (update anew : Bool) : TblRes × State :=
  if !strValid d || strBad d then ({ code := 4 }, s)
  else match s.strFind (d.take 6) (strKt d) with
    | some h =>
      if !update then ({ code := 2, index := some h }, s)
      else let x := strWrite s h d anew; ({ code := x.1, moves := x.2.1, index := if x.1 = 0 then some h else none }, x.2.2)
    | none => match (List.range 4096).find? (fun h => !strValid (s.tget .stream h)) with
      | none => ({ code := 3 }, s)
      | some h => let x := strWrite s h d anew; ({ code := x.1, moves := x.2.1, index := if x.1 = 0 then some h else none }, x.2.2)

/-- INSERT on the route table (R117, R121 to R123, R126). -/
def rtInsertOp (s : State) (d : List Word) (update : Bool) : TblRes × State :=
  if !rtValid d || rtBad d then ({ code := 4 }, s)
  else match s.rtFind d with
    | some i => if update then ({ index := some i }, s.tset .route i d true 40 true) else ({ code := 2, index := some i }, s)
    | none => match s.part with
      | .am7240 =>
        let x := rtInsert s d
        ({ code := x.1, moves := x.2.1, index := if x.1 = 0 then some x.2.2.1 else none }, x.2.2.2)
      | .am7220 =>
        if s.rtLenFull d then ({ code := 8 }, s)
        else match s.rtTab.place s.act d false with
          | some (ws, i, mv) => ({ moves := mv, index := some i }, writes s .route ws 40 true)
          | none => ({ code := 3 }, s)

/-- INSERT (R126). With a present key (EXISTS) TBL_INDEX is that entry's. DEDUCED (log entry 21): the table says that INSERT
returns TBL_INDEX. -/
def tblInsertOp (s : State) (o : TblOp) : TblRes × State :=
  match o.table with
  | 0 => fdbInsert s ((List.range 3).map (wd o.data)) (bit o.cmd 8)
  | 1 => strInsert s ((List.range 13).map (wd o.data)) (bit o.cmd 8) (bit o.cmd 10)
  | 4 => rtInsertOp s ((List.range 8).map (wd o.data)) (bit o.cmd 8)
  | _ => ({ code := 6 }, s)

/-- An entry of a table is removed. -/
def tblRemove (s : State) (t i : Nat) : TblRes × State :=
  match t with
  | 0 => ({}, fdbClear s i true)
  | 1 => ({}, if strValid (s.tget .stream i) then strRemove s i true else s)
  | 2 => ({}, s.tset .vlan i [] true 20 true)
  | 3 => ({}, s.tset .group i [] true 20 true)
  | 4 => ({}, s.tset .route i [] true 40 true)
  | 5 => if s.bankBusy then ({ code := 13 }, s) else ({}, s.tset s.prepBank i [] true 72 true)
  | 6 => ({}, ctRemove s i)
  | _ => ({}, s.tset .filter i [] true 44 true)

/-- DELETE (R126): by TBL_INDEX, or by key where the table serves keys. -/
def tblDeleteOp (s : State) (o : TblOp) : TblRes × State :=
  if s.tblSize o.table = 0 then ({ code := 6 }, s)
  else if bit o.cmd 9 then
    if s.tblSize o.table ≤ o.idx then ({ code := 5 }, s) else tblRemove s o.table o.idx
  else if o.table = 0 ∨ o.table = 1 ∨ o.table = 4 ∨ o.table = 6 then
    match s.keyFind o.table o.data with
    | some i => tblRemove s o.table i
    | none => ({ code := 1 }, s)
  else ({ code := 6 }, s)

/-! ### FLUSH_PORT, MOVE and SEED_SET -/

/-- FLUSH_PORT (R99, R100). -/
def flushPortOp (s : State) (o : TblOp) : TblRes × State :=
  let n := fld o.index 0 5
  if o.table ≠ 0 then ({ code := 6 }, s)
  else if 24 ≤ n then ({ code := 5 }, s)
  else if s.genFull n then ({ code := 10 }, s)
  else ({}, genAdvance s n true)

/-- MOVE (R121): a route row to a free row, on the AM7240. -/
def tblMoveOp (s : State) (o : TblOp) : TblRes × State :=
  let i := o.idx
  let j := fld o.index 16 16
  if o.table ≠ 4 ∨ s.part = .am7220 then ({ code := 6 }, s)
  else if 4096 ≤ i ∨ 4096 ≤ j then ({ code := 5 }, s)
  else
    let e := s.tget .route i
    if rtValid (s.tget .route j) then ({ code := 5 }, s)
    else if !rtValid e then ({ code := 1 }, s)
    else if !s.rtOrder j i e then ({ code := 7 }, s)
    else ({}, (s.tset .route j e true 40 true).tset .route i [] true 40 true)

/-- SEED_SET (R102, R103, R107, R122). -/
def seedSetOp (s : State) (o : TblOp) : TblRes × State :=
  let sd := seedEnt o.data
  let none? (sp : Space) (v : List Word → Bool) := !(s.act.ents sp).any (fun e => v e.2)
  match o.table with
  | 0 =>
    if s.act.migrating then ({ code := 9 }, s)
    else
      let cur := match s.tget .seed 0 with | [] => resetSeeds | l => l
      let ep := !s.act.epoch
      let s := (s.tset .seed 1 cur true 16 true).tset .seed 0 sd true 16 true
      let s := s.tset .seed 4 [BitVec.ofNat 32 ((if ep then 1 else 0) + 2)] true 16 true
      ({}, migrationEnd s true)
  | 1 => if none? .stream strValid then ({}, s.tset .seed 2 sd true 16 true) else ({ code := 11 }, s)
  | 4 =>
    if s.part = .am7240 then ({ code := 6 }, s)
    else if none? .route rtValid then ({}, s.tset .seed 3 sd true 16 true) else ({ code := 11 }, s)
  | _ => ({ code := 6 }, s)

/-! ### Running a command (R92, R125, R126, R244) -/

/-- A command on the ACTIVE plane; a reserved OP completes with BAD_CMD. -/
def tblRun (s : State) (o : TblOp) : TblRes × State :=
  match o.op with
  | 1 => (tblReadOp s o, s)
  | 2 => tblWriteOp s o
  | 3 => tblInsertOp s o
  | 4 => tblDeleteOp s o
  | 5 => (tblSearchOp s o, s)
  | 6 => (tblNextOp s o, s)
  | 7 => flushPortOp s o
  | 8 => tblMoveOp s o
  | 9 => seedSetOp s o
  | _ => ({ code := 6 }, s)

/-- R126: the most write cycles that a command can use. -/
def State.tblCycles (s : State) (o : TblOp) : Nat :=
  match o.op with
  | 2 => if o.table = 1 then 34 else 1
  | 3 => if o.table = 4 && s.part == .am7240 then 162 else 33
  | 4 => if o.table = 1 then 2 else 1
  | 7 => 1
  | 8 => 2
  | 9 => 1
  | _ => 0

/-- R241, R244: the most bytes of exact records that a command can produce. -/
def State.tblBytes (s : State) (o : TblOp) : Nat :=
  match o.op with
  | 2 => (match o.table with | 0 => 36 | 1 => 60 + 8 * 34 | 2 => 20 | 3 => 20 | 4 => 40 | 5 => 72 | 6 => 52 | _ => 44)
  | 3 => (match o.table with | 0 => 34 * 20 + 16 | 1 => 60 + 8 * 34 | _ => if s.part = .am7240 then 162 * 40 else 33 * 40)
  | 4 => (match o.table with | 0 => 36 | 1 => 68 | 2 => 20 | 3 => 20 | 4 => 40 | 5 => 72 | 6 => 52 | _ => 44)
  | 7 => 16
  | 8 => 80
  | 9 => if o.table = 0 then 48 else 16
  | _ => 0

/-- Bytes of exact records produced in this beat so far, those of the meters that have metered among them. -/
def State.exactBytes (s : State) : Nat :=
  s.twin.dirty.foldl (fun a e => if e.exact then a + e.bytes else a) (16 * s.twin.metered.length)

/-- R91, R92, R126, R244: may a ring command start in this beat's slice, of which each table has its own. -/
def State.tblStarts (s : State) (o : TblOp) : Bool :=
  !s.twin.sliceEnd && (s.twin.wrCmds == 0 ||
    (decide (s.cmdCycles o.table + s.tblCycles o ≤ 768) && (!s.rbit .TWIN_CTRL 1 || decide (s.exactBytes + s.tblBytes o ≤ 16384))))

/-- R126: the write cycles that a command has used: one for each entry that it changed, a stream's directory slots among them. -/
def State.tblUsed (s : State) (o : TblOp) (d : List Dirty) : Nat :=
  min (s.tblCycles o) (d.foldl (fun a e => a + 1 + (e.parts.filter (fun k => k / 2 ^ 20 == Space.dir.ctorIdx)).length) 0)

/-- A command runs in the slice and is kept until the standby has its records (R125); with no ACTIVE plane it is not applied and
completes with SWITCHOVER when a plane takes control. -/
def tblExec (s : State) (src : CmdSrc) (pos : Nat) (o : TblOp) : TblRes × State :=
  let beat := if s.twin.windowDone then s.beat + 1 else s.beat
  if s.actId.isNone then
    ({ code := 14 }, { s with twin := { s.twin with cmds := s.twin.cmds ++ [{ src, beat, code := 14, undo := [], pos }] } })
  else
    let before := s.act
    let d0 := s.twin.dirty
    let x := tblRun { s with twin := { s.twin with dirty := [] } } o
    let d1 := x.2.twin.dirty
    let undo := (d1.flatMap (fun e => e.key :: e.parts)).map (fun k => (k, SMap.get [] before.mem k))
    let s := { x.2 with twin := { x.2.twin with dirty := d0 } }
    let s := d1.foldl (fun s e => s.mark e.key e.exact e.bytes e.cmd e.parts) s
    (x.1, { s with twin := { s.twin with
      cmds := s.twin.cmds ++ [{ src, beat, code := x.1.code, undo, pos }]
      wrCmds := s.twin.wrCmds + 1
      wrCycles := SMap.upd 0 s.twin.wrCycles o.table (· + s.tblUsed o d1) } })

/-! ### TBL_CMD (R124, R125) -/

/-- TBL_CMD.BUSY. -/
def State.tblBusy (s : State) : Bool :=
  s.twin.cmdWait || s.twin.cmds.any (fun c => match c.src with | .reg _ => true | _ => false)

/-- R125: the command that TBL_CMD holds runs in the slice, on what TBL_DATA, TBL_INDEX and TBL_FILTER hold. Its results are shown
when it completes. -/
def tblCmdRun (s : State) : State :=
  let w := s.reg .TBL_CMD
  let o : TblOp := { cmd := w, index := s.reg .TBL_INDEX, filter := s.reg .TBL_FILTER,
                     data := (List.range 16).map (fun i => s.reg .TBL_DATA i) }
  let x := tblExec { s with twin := { s.twin with cmdWait := false } } (.reg w) 0 o
  let show_ := fun (c : TblCmd) => match c.src with
    | .reg _ => { c with moves := if fld w 0 4 = 3 then some x.1.moves else none, index := x.1.index, data := x.1.data }
    | _ => c
  { x.2 with twin := { x.2.twin with cmds := x.2.twin.cmds.map show_ } }

/-- R124, R125: a write to TBL_CMD issues the command that it names for the next beat's slice; OP 0 is none. A write while
BUSY = 1 is discarded. -/
def tblCmdWrite (s : State) (w : Word) : State :=
  if s.tblBusy then s.setRbit .TBL_STATUS 12 true
  else
    let s := s.setReg .TBL_CMD (w &&& 0x7FF)
    if fld w 0 4 = 0 then s else { s with twin := { s.twin with cmdWait := true } }

/-- A command of TBL_CMD taken at the instant at which it runs: its write and its run in the slice in one step. Once the slice of the beat
has ended it runs in the next one. -/
def tblCmdNow (s : State) (w : Word) : State :=
  if s.tblBusy then s.setRbit .TBL_STATUS 12 true
  else if s.twin.sliceEnd then tblCmdWrite s w
  else tblCmdRun (s.setReg .TBL_CMD (w &&& 0x7FF))

/-! ### Command rings and batches (R126, R363 to R365) -/

/-- R365: the next record of a batch that has not run. -/
def Desc.batchNext (d : Desc) : Option (Nat × List Word) :=
  if d.state = 1 ∧ wfld d.words 0 12 3 = 4 then d.recs[d.res7.toNat / 65536]? else none

/-- A record as a command: words 0 to 2 and 4 to 19. -/
def recOp (w : List Word) : TblOp := { cmd := wd w 0, index := wd w 1, filter := wd w 2, data := (w.drop 4).take 16 }

/-- R365: a batch with no record left completes once its commands have; its slabs become device-done with the completion. -/
def batchEnd (s : State) (r idx : Nat) : State :=
  let more := s.twin.cmds.any (fun c => match c.src with | .batch r' i' _ => r'.val == r && i'.toNat == idx | _ => false)
  updDesc s (64 + r) idx (fun d => { d with state := if more then 2 else 3 })

/-- R365: the next record of a batch runs as one class 0 command: word 3 and the data take its result. A record that is not OK
is the first such one in RESULT_INDEX, and ends the batch with STOP_ON_ERR = 1. -/
def batchOne (s : State) (r : Fin 2) (idx : Nat) (d : Desc) (w : List Word) (addr : Nat) : State :=
  let n := d.res7.toNat / 65536
  let o := recOp w
  let src := CmdSrc.batch r (BitVec.ofNat 16 idx) w
  let x := tblExec s src n o
  let w := wset w 3 (BitVec.ofNat 32 (x.1.code + x.1.moves * 16 + (x.1.index.getD o.idx) * 65536))
  let w := match x.1.data with
    | some e => (List.range e.length).foldl (fun w i => wset w (4 + i) (wd e i)) w
    | none => w
  let bad := x.1.code != 0
  let firstBad := bad && d.detail == 0
  let stop := (bad && bit (wd d.words 0) 11) || decide (d.recs.length ≤ n + 1)
  let s := updDesc x.2 (64 + r.val) idx (fun d => { d with
    recs := d.recs.set n (addr, w)
    detail := if firstBad then x.1.code else d.detail
    res6 := if firstBad then BitVec.ofNat 32 (x.1.code * 256) else d.res6
    res7 := BitVec.ofNat 32 ((if firstBad then n else d.res7.toNat % 65536) + (n + 1) * 65536) })
  if stop then batchEnd s r.val idx else s

/-- The records of a batch that the slice has room for. -/
def batchRun (r : Fin 2) (idx : Nat) : Nat → State → State
  | 0, s => s
  | fuel + 1, s =>
    match (s.ring (64 + r.val)).fetched.find? (fun d => d.idx == idx) with
    | none => s
    | some d => match d.batchNext with
      | none => s
      | some (a, w) => if s.tblStarts (recOp w) then batchRun r idx fuel (batchOne s r idx d w a) else s

/-- Step 9 of R20: batches in progress go on in the new beat's slice. -/
def batchSlice (s : State) : State :=
  [(0 : Fin 2), 1].foldl (fun s r =>
    match (s.ring (64 + r.val)).fetched.find? (fun d => d.batchNext.isSome) with
    | some d => batchRun r d.idx 3264 s
    | none => s) s

/-- R365: the records of the slabs of a batch, 51 in each, up to the first with OP = 0. -/
def batchRecs (s : State) (slabs : List SlabRead) : List (Nat × List Word) :=
  (slabs.flatMap (fun b => (List.range 51).map (fun j => (s.slabAddr b.slab + 80 * j, leWords b.data (80 * j) 20)))).takeWhile
    (fun x => wfld x.2 0 0 4 != 0)

/-- BATCH (R365): COUNT slabs from FIRST, each owned by the device, run as class 0 commands. A slab that the device may not use
ends the batch before its first record with BAD_DESC. -/
def execBatch (r : Fin 2) (idx : BitVec 16) (desc : List Word) (slabs : List SlabRead) (s : State) : Ans :=
  onDie s (fun s => onCmd s r idx (wsetFld desc 0 12 3 4) (fun s =>
    let s := slabsSeen s slabs
    let n := wfld desc 2 16 7
    let first := wfld desc 2 0 16
    if n = 0 ∨ 64 < n ∨ wfld desc 2 23 9 ≠ 0 ∨ slabs.map (·.slab) ≠ (List.range n).map (first + ·) ∨
        !slabs.all (fun b => s.slabOk b.slab b.flag) then cmdDone s r idx.toNat 7 0
    else
      let recs := batchRecs s slabs
      let s := slabs.foldl (fun s b => slabKeep s b.slab b.flag) s
      let s := updDesc s (64 + r.val) idx.toNat (fun d => { d with recs, slabs := slabs.map (fun b => (b.slab, b.flag.toNat / 4)) })
      if recs.isEmpty then batchEnd s r idx.toNat else batchRun r idx.toNat 3264 s))

/-- A class 0 descriptor runs if the slice has room; else it waits for the next one (R126). -/
def ringTbl (s : State) (r : Fin 2) (idx : BitVec 16) (desc data : List Word) : State :=
  let o : TblOp := { cmd := wd desc 0, index := wd desc 1, filter := wd desc 2, data }
  if s.cmdOpen r idx.toNat desc && !cmdBad desc && !s.tblStarts o then s.put .waits
  else onCmd s r idx desc (fun s =>
    let x := tblExec s (.ring r idx desc data) 0 o
    updDesc x.2 (64 + r.val) idx.toNat (fun d => { d with
      state := 2, res6 := BitVec.ofNat 32 (x.1.code * 256 + x.1.moves * 65536), res7 := BitVec.ofNat 32 (x.1.index.getD o.idx),
      data := match x.1.data with
        | some e => (List.range 16).map (fun i => if i < e.length then wd e i else wd data i)
        | none => [] }))

/-- A table command by its source; `op` is the row's OP. A batch's record runs when it is the next of a batch in progress. -/
def tblCommand (op : Nat) (src : CmdSrc) (s : State) : State :=
  match src with
  | .reg w => tblCmdNow s (setFld w 0 4 op)
  | .ring r idx desc data => ringTbl s r idx (wsetFld (wsetFld desc 0 12 3 0) 0 0 4 op) data
  | .batch r idx w =>
    match (s.ring (64 + r.val)).fetched.find? (fun d => d.idx == idx.toNat) with
    | none => s.put .waits
    | some d => match d.batchNext with
      | none => s.put .waits
      | some (a, w') =>
        if w' = wsetFld w 0 0 4 op && s.tblStarts (recOp w') then batchOne s r idx.toNat d w' a else s.put .waits

/-- R125, R126, R351: the answer to a table command: the host's BAR0 write to TBL_CMD, or a command of a command ring. -/
def tblAns (op : Nat) (src : CmdSrc) (s : State) : Ans :=
  match src with
  | .reg _ => onBar0 s .TBL_CMD 0 (tblCommand op src)
  | .ring _ _ _ _ | .batch _ _ _ => onDie s (tblCommand op src)

/-- TBL_READ (R126). -/
def execTblRead (src : CmdSrc) (s : State) : Ans := tblAns 1 src s
/-- TBL_WRITE (R126). -/
def execTblWrite (src : CmdSrc) (s : State) : Ans := tblAns 2 src s
/-- TBL_INSERT (R126). -/
def execTblInsert (src : CmdSrc) (s : State) : Ans := tblAns 3 src s
/-- TBL_DELETE (R126). -/
def execTblDelete (src : CmdSrc) (s : State) : Ans := tblAns 4 src s
/-- TBL_SEARCH (R126). -/
def execTblSearch (src : CmdSrc) (s : State) : Ans := tblAns 5 src s
/-- TBL_NEXT (R126). -/
def execTblNext (src : CmdSrc) (s : State) : Ans := tblAns 6 src s
/-- FLUSH_PORT (R99). -/
def execFlushPort (src : CmdSrc) (s : State) : Ans := tblAns 7 src s
/-- TBL_MOVE (R121). -/
def execTblMove (src : CmdSrc) (s : State) : Ans := tblAns 8 src s
/-- SEED_SET (R102). -/
def execSeedSet (src : CmdSrc) (s : State) : Ans := tblAns 9 src s

end Sys2Proof.Machine
end

