-- ==== Sys2Proof/Machine/Time.lean ====
section
/-! DEFINITION. The time unit: applying rates and steps to the domains, snapshots, comparators, TRIG and CAP, gPTP, and the beat
boundary's instant with its slewing and resynchronisation (R325 to R347). -/

namespace Sys2Proof.Machine

/-! ### TRIG channels (R342 to R345) -/

/-- 2^-16 ns of a number of ns. -/
def nsT (n : Int) : Int := n * 65536

/-- TRIG channel `t`. -/
def State.trig (s : State) (t : Nat) : Trig := SMap.get {} s.time.trig t
/-- TRIG channel `t` replaced. -/
def State.setTrig (s : State) (t : Nat) (v : Trig) : State :=
  { s with time := { s.time with trig := SMap.set {} s.time.trig t v } }

/-- R342: the period of a channel in 2^-32 ns. -/
def State.trigPeriod (s : State) (t : Nat) : Nat :=
  (s.reg .TIME_TRIG_PERIOD t).toNat * 2 ^ 32 + (s.reg .TIME_TRIG_PERIOD_FRAC t).toNat

/-- R342: S_k of a channel, in 2^-32 ns. -/
def State.trigStart (s : State) (t k : Nat) : Nat :=
  s.reg64 .TIME_TRIG_START_LO .TIME_TRIG_START_HI t * 2 ^ 32 + k * s.trigPeriod t

/-- The lowest k ≥ 0 with S_k at or after an instant in 2^-16 ns. -/
def State.trigFrom (s : State) (t : Nat) (at_ : Int) : Nat :=
  let d := at_ * 65536 - (s.trigStart t 0 : Int)
  if d ≤ 0 then 0 else (d.toNat + s.trigPeriod t - 1) / s.trigPeriod t

/-- The timer code of a channel. -/
def State.trigTimer (s : State) (t : Nat) : Nat := s.rfld .TIME_TRIG_CFG 1 3 t

/-- R343, R345: a channel is armed, or with EN = 0 its output becomes inactive. -/
def trigArm (s : State) (t : Nat) : State :=
  let v := s.trig t
  if s.rbit .TIME_TRIG_CFG 0 t then
    s.setTrig t { v with armed := true, high := false, k := s.trigFrom t (s.timer (s.trigTimer t) + nsT 16000) }
  else s.setTrig t { v with armed := false, high := false }

/-- R342: a pulse ends; with ONE_SHOT the channel has done its work. -/
def trigFall (s : State) (t : Nat) : State :=
  let v := s.trig t
  s.setTrig t { v with high := false, k := v.k + 1, armed := !s.rbit .TIME_TRIG_CFG 11 t }

/-- TRIG_EDGE (R342): the instant of the channel's next edge is reached: the pulse begins or ends. In the safe state the channel
counts k and its land stays low (R345). Timer codes 5 to 7 are reserved and reach no instant. -/
def trigEdge (s : State) (t : Nat) : State :=
  let v := s.trig t
  let now := s.timer (s.trigTimer t) * 65536
  if !v.armed || decide (4 < s.trigTimer t) then s
  else if v.high then
    if (s.trigStart t v.k : Int) + (s.reg .TIME_TRIG_WIDTH t).toNat * 2 ^ 32 ≤ now then trigFall s t else s
  else if (s.trigStart t v.k : Int) ≤ now then
    s.setTrig t { v with high := true, pulses := if s.twin.safe then v.pulses else (v.pulses + 1) % 65536 }
  else s

/-- TRIG_EDGE (R342). -/
def execTrigEdge (t : Fin 16) (s : State) : Ans := onDie s (fun s => trigEdge s t)

/-- R342, R345: the level of a channel's land. -/
def State.trigLevel (s : State) (t : Nat) : Bool := !s.twin.safe && ((s.trig t).high != s.rbit .TIME_TRIG_CFG 4 t)

/-- R344: the channel's timer has stepped forward to its present reading: a pulse in progress whose end was passed over ends, and
the pulses whose start was passed over are dropped and counted. -/
def trigSkip (s : State) (t : Nat) : State :=
  let v := s.trig t
  let now := s.timer (s.trigTimer t)
  let s := if v.high && decide ((s.trigStart t v.k : Int) + (s.reg .TIME_TRIG_WIDTH t).toNat * 2 ^ 32 < now * 65536) then
      trigFall s t else s
  let v := s.trig t
  let n := s.trigFrom t now - v.k
  if v.high || !v.armed || n = 0 then s
  else (s.setTrig t { v with k := v.k + n, skips := min 255 (v.skips + n) }).flag .TIME_EVENT .TIME_IRQ_EN 3

/-- R344: every channel on timer `d` after a forward step of that timer. -/
def trigSkips (s : State) (d : Nat) : State :=
  (List.range 16).foldl (fun s t => if s.trigTimer t = d then trigSkip s t else s) s

/-! ### Domains (R326 to R329) -/

/-- R329: the staged rate as it is applied, and whether it was limited. -/
def State.rateOf (s : State) (d : Nat) : Int × Bool :=
  let r := (s.reg .TIME_DOM_RATE d).toInt
  if d = 0 ∧ 549755814 < r then (549755814, true)
  else if d = 0 ∧ r < -549755814 then (-549755814, true)
  else (r, false)

/-- R327: one apply command on domain `d` at the present counter value, with the step it makes in 2^-16 ns. -/
def domApply (s : State) (d : Nat) (re : Domain → Domain × Int) : State × Int :=
  let o := s.domain d
  let t := o.at s.time.cnt
  let x := re { o with ta := t, ca := s.time.cnt, seq := (o.seq + 1) % 256 }
  ({ s with time := { s.time with dom := SMap.set {} s.time.dom d x.1 } }, x.2)

/-- APPLY_RATE of R327. -/
def applyRate (s : State) (d : Nat) : State × Int :=
  let r := s.rateOf d
  let s := if r.2 then s.flag .TIME_EVENT .TIME_IRQ_EN 1 else s
  domApply s d (fun o => ({ o with rate := r.1 }, 0))

/-- APPLY_ADJ of R327. -/
def applyAdj (s : State) (d : Nat) : State × Int :=
  let a := nsT (BitVec.ofNat 64 (s.reg64 .TIME_DOM_ADJ_LO .TIME_DOM_ADJ_HI d)).toInt
  domApply s d (fun o => ({ o with ta := o.ta + a }, a))

/-- APPLY_SET of R327. -/
def applySet (s : State) (d : Nat) : State × Int :=
  let v := nsT (s.reg64 .TIME_DOM_SET_LO .TIME_DOM_SET_HI d)
  domApply s d (fun o => ({ o with ta := v }, v - o.ta))

/-- R337, R339: a step of domain 0 goes into E; one that leaves more than 8,000 ns asks for a resynchronisation. -/
def beatStep (s : State) (step : Int) : State :=
  let e := s.time.err + step * 10
  let big := decide (nsT 80000 < e) || decide (e < - nsT 80000)
  { s with time := { s.time with err := e, resync := s.time.resync || big,
                                 step := if big || s.time.resync then step / 65536 else s.time.step } }

/-- R327: the commands of `w` act in the order RATE, ADJ, SET in one clock, which then has passed. -/
def domApplyAll (s : State) (d : Nat) (w : Word) : State :=
  let a := if bit w 0 then applyRate s d else (s, 0)
  let b := if bit w 1 then applyAdj a.1 d else (a.1, 0)
  let c := if bit w 2 then applySet b.1 d else (b.1, 0)
  let step := b.2 + c.2
  let s := if d = 0 ∧ step ≠ 0 then beatStep c.1 step else c.1
  let s := if 0 < step then trigSkips s d else s
  if bit w 0 || bit w 1 || bit w 2 then { s with time := { s.time with cnt := s.time.cnt + 1 } } else s

/-- R328: a host write to TIME_DOM_CMD. -/
def domCmdWrite (s : State) (d : Nat) (w : Word) : State :=
  if s.rbit .TIME_DOM_CFG 0 d then s.flag .TIME_EVENT .TIME_IRQ_EN 2 else domApplyAll s d w

/-- APPLY_RATE (R327): TIME_DOM_CMD is written with APPLY_RATE. -/
def execApplyRate (d : Fin 4) (w : Word) (s : State) : Ans := onBar0 s .TIME_DOM_CMD d (fun s => domCmdWrite s d (setBit w 0 true))

/-- APPLY_ADJ (R327). -/
def execApplyAdj (d : Fin 4) (w : Word) (s : State) : Ans := onBar0 s .TIME_DOM_CMD d (fun s => domCmdWrite s d (setBit w 1 true))

/-- APPLY_SET (R327). -/
def execApplySet (d : Fin 4) (w : Word) (s : State) : Ans := onBar0 s .TIME_DOM_CMD d (fun s => domCmdWrite s d (setBit w 2 true))

/-! ### gPTP (R333, R334) -/

/-- R334: Shepherd's servo stages and applies a rate, with a step only for an offset above 1 µs or a new grandmaster. -/
def gptpSync (s : State) (d : Nat) (x : GptpSync) : State :=
  let o := x.offset.toInt
  let big := x.gmChange || decide (1000 < o) || decide (o < -1000)
  let s := s.setReg .TIME_DOM_RATE x.rate d
  let s := if big then s.setReg64 .TIME_DOM_ADJ_LO .TIME_DOM_ADJ_HI x.offset.toNat d else s
  domApplyAll s d (if big then 3 else 1)

/-- R333: does port `n` take part in gPTP domain `d`: enabled for it, no M port, with its link up. -/
def State.ptpPort (s : State) (d n : Nat) : Bool :=
  decide (n < 22) && s.hasPort n && portClass n != .m && s.rbit .TIME_PTP_PORT d n && s.up n

/-- R333: the external role of a port in a domain: 0 disabled, 1 passive, 2 master, 3 slave. -/
def State.ptpRole (s : State) (d n : Nat) : Nat := s.rfld .TIME_PTP_PORT (4 + 2 * d) 2 n

/-- R333: external port configuration instead of the BMCA. -/
def State.ptpExt (s : State) (d : Nat) : Bool := s.rbit .TIME_DOM_CFG 2 d

/-- R333: is sync information taken: from a port that takes part, with the domain's domainNumber, and on the port that is slave, by the
external roles or because the BMCA does not prefer this device as grandmaster. -/
def State.ptpTakes (s : State) (d : Nat) (x : GptpSync) : Bool :=
  s.ptpPort d x.port && x.domainNumber.toNat == s.rfld .TIME_DOM_CFG 8 8 d &&
    (if s.ptpExt d then s.ptpRole d x.port == 3
     else !(s.rbit .TIME_DOM_CFG 1 d && decide (s.rfld .TIME_DOM_CFG 24 8 d < x.priority1.toNat)))

/-- R333, R334: may the device be grandmaster of a domain. -/
def State.ptpOwn (s : State) (d : Nat) : Bool :=
  s.rbit .TIME_DOM_CFG 1 d && !(s.ptpExt d && (List.range 22).any (fun n => s.ptpPort d n && s.ptpRole d n == 3))

/-- R51, R54, R333: the two-step Sync message that Shepherd sends to port `n` as time-aware relay or grandmaster, marked for a transmit
stamp. PRESUMED (log entry 89): the message's form is that of IEEE 802.1AS-2020. -/
def State.ptpSync (s : State) (d n : Nat) : ShepTx :=
  let mac := s.shepMac
  s.llFrame n 0x88F7 true ([0x10, 0x12] ++ beBytes 44 2 ++ [BitVec.ofNat 8 (s.rfld .TIME_DOM_CFG 8 8 d), 0] ++ beBytes 0x0208 2 ++
    List.replicate 12 0 ++ (mac.take 3 ++ [0xFF, 0xFE] ++ mac.drop 3) ++ beBytes (n + 1) 2 ++ beBytes (s.domain d).syncSeq 2 ++ [0] ++
    [BitVec.ofInt 8 (- (s.rfld .TIME_DOM_CFG 16 3 d : Int))] ++ List.replicate 10 0)

/-- R333: Shepherd sends Sync on every port of the domain that is master: by the external roles, or by the BMCA's outcome `masters`. -/
def ptpRelay (s : State) (d : Nat) (masters : BitVec 22) : State :=
  let ps := (List.range 22).filter (fun n => s.ptpPort d n && (if s.ptpExt d then s.ptpRole d n == 2 else masters.getLsbD n))
  let s := shepSend s (ps.map (s.ptpSync d))
  { s with time := { s.time with dom := SMap.set {} s.time.dom d { s.domain d with syncSeq := ((s.domain d).syncSeq + 1) % 65536 } } }

/-- R334: the domain has synchronised, or the device is its grandmaster, which takes time from the resonator. -/
def ptpLocked (s : State) (d : Nat) (gm : Bool) : State :=
  { s with time := { s.time with dom := SMap.set {} s.time.dom d { s.domain d with locked := true, gm, syncAt := s.time.cnt } } }

/-- GPTP_SYNC (R333, R334): a domain of Shepherd's takes sync information, or this device is its grandmaster; either way Shepherd relays
time. In the safe state no frame goes out (R255). -/
def execGptpSync (d : Fin 4) (sync : GptpSync) (s : State) : Ans :=
  onDie s (fun s =>
    if !s.rbit .TIME_DOM_CFG 0 d || s.clk.shepDown then s
    else
      let s' := if sync.own then (if s.ptpOwn d then some (ptpLocked s d true) else none)
        else if s.ptpTakes d sync then some (ptpLocked (gptpSync s d sync) d false) else none
      match s' with
      | none => s
      | some t => if t.twin.safe then t else ptpRelay t d (if sync.own then sync.masters else sync.masters &&& ~~~(1#22 <<< sync.port.val)))

/-- SYNC_LOSS (R334): sync messages of a domain of Shepherd's have been missing for three sync intervals; a grandmaster stays LOCKED. -/
def execSyncLoss (d : Fin 4) (s : State) : Ans :=
  onDie s (fun s =>
    let x := s.domain d
    if s.rbit .TIME_DOM_CFG 0 d && !s.clk.shepDown && !x.gm &&
        decide (937500000 ≤ (s.time.cnt - x.syncAt).toNat * 2 ^ s.rfld .TIME_DOM_CFG 16 3 d) then
      { s with time := { s.time with dom := SMap.set {} s.time.dom d { x with locked := false } } }
    else s)

/-! ### Reading time (R330, R331) -/

/-- TIME_CNT_LO_READ (R330): a read of TIME_CNT_LO. -/
def timeCntLo (s : State) : Word × State :=
  (s.time.cnt.truncate 32, { s with time := { s.time with cntHi := (s.time.cnt >>> 32).truncate 32 } })

/-- TIME_CNT_LO_READ (R330). -/
def execTimeCntLoRead (s : State) : Ans := onDie s (fun s => let x := timeCntLo s; x.2.put (.read x.1))

/-- The number of the running beat, not wrapped: its boundary lies at this multiple of 8,000 ns of beat time. -/
def State.beatIndex (s : State) : Int := (s.beatTime s.time.beatAt + nsT 4000) / nsT 8000

/-- TAKE (R331): the counter, the domains, the beat and the ns of beat time elapsed in it are latched. -/
def timeTake (s : State) : State :=
  let boff := (s.beatTime s.time.cnt - s.beatIndex * nsT 8000) / 65536
  let x : TimeSnap := { cnt := s.time.cnt, beat := s.beat, boff := boff.toNat % 2 ^ 14, valid := true, seq := (s.time.snap.seq + 1) % 256,
                        dom := (List.range 4).map (fun d => (s.domain d).ns s.time.cnt) }
  { s with time := { s.time with snap := x } }

/-- TAKE (R331): 1 is written to TIME_SNAP_CMD.TAKE. -/
def execTake (s : State) : Ans := onBar0 s .TIME_SNAP_CMD 0 timeTake

/-! ### Comparators (R341) -/

/-- COMPARATOR_FIRE (R341): an enabled comparator whose timer has reached its instant fires and disables itself. -/
def comparatorFire (s : State) (m : Nat) : State :=
  let t := s.rfld .TIME_CMP_CFG 1 3 m
  if s.rbit .TIME_CMP_CFG 0 m && decide (t ≤ 4) && decide (nsT (s.reg64 .TIME_CMP_T_LO .TIME_CMP_T_HI m) ≤ s.timer t) then
    let s := (s.setRbit .TIME_CMP_EVENT m true).setRbit .TIME_CMP_CFG 0 false m
    if s.rbit .TIME_CMP_CFG 4 m then s.pend (s.rfld .HIF_MISC_VEC 0 6) else s
  else s

/-- COMPARATOR_FIRE (R341). -/
def execComparatorFire (m : Fin 32) (s : State) : Ans := onDie s (fun s => comparatorFire s m)

/-! ### CAP inputs (R346) -/

/-- CAP input `i`. -/
def State.cap (s : State) (i : Nat) : Cap := SMap.get {} s.time.cap i
/-- CAP input `i` replaced. -/
def State.setCap (s : State) (i : Nat) (v : Cap) : State := { s with time := { s.time with cap := SMap.set {} s.time.cap i v } }

/-- R298: a stamp goes as a CAPTURE event to K14 and K15 under their CAP_MASK. -/
def capEvents (s : State) (i : Nat) (t : Wide) : State :=
  [14, 15].foldl (fun s e =>
    if s.rbit .KLP_ENG_CTRL (8 + i) e then
      s.setEngine e { s.engine e with capture := (s.engine e).capture ++ [{ bytes := leBytes i 4 ++ leBytes t.toNat 8 }] }
    else s) s

/-- R346: an accepted edge with its stamp. -/
def capEdge (s : State) (i : Nat) (falling : Bool) (t : Wide) : State :=
  let c := s.cap i
  let s := if c.fifo.length < 16 then s.setCap i { c with fifo := c.fifo ++ [(t, falling)] }
    else (s.bump (.cap i)).flag .TIME_EVENT .TIME_IRQ_EN 4
  let s := capEvents s i t
  let s := if s.rbit .REC_CTRL 5 && s.rfld .REC_CTRL 2 3 == i then recTrigger s 2 ((s.domain 0).ns t) else s
  s.emitIf (s.rbit .TIME_CAP_CFG 4 i) 0x81 i (if falling then 1 else 0) [t.truncate 32, (t >>> 32).truncate 32]

/-- CAP_EDGE (R346): a level of at least FILTER cycles began with an edge that EDGE may select. -/
def execCapEdge (i : Fin 8) (falling : Bool) (stamp : Wide) (s : State) : Ans :=
  onDie s (fun s =>
    if s.rbit .TIME_CAP_CFG 0 i && s.rbit .TIME_CAP_CFG (if falling then 2 else 1) i then capEdge s i falling stamp else s)

/-- R346: a read of TIME_CAP_FIFO_LO latches the head stamp; of an empty FIFO it gives a free value (log entry 1). -/
def capLo (s : State) (i : Nat) : Word × State :=
  match (s.cap i).fifo with
  | [] => s.fresh
  | (t, _) :: _ => (t.truncate 32, s.setCap i { s.cap i with latch := some t })

/-- R346: a read of TIME_CAP_FIFO_HI returns the upper half of the latched head and removes it. -/
def capHi (s : State) (i : Nat) : Word × State :=
  match (s.cap i).fifo with
  | [] => s.fresh
  | (t, _) :: rest => ((((s.cap i).latch.getD t) >>> 32).truncate 32, s.setCap i { fifo := rest, latch := none })

/-- TIME_CAP_FIFO_LO_READ (R346). -/
def execTimeCapFifoLoRead (i : Fin 8) (s : State) : Ans := onDie s (fun s => let x := capLo s i; x.2.put (.read x.1))

/-- TIME_CAP_FIFO_HI_READ (R346). -/
def execTimeCapFifoHiRead (i : Fin 8) (s : State) : Ans := onDie s (fun s => let x := capHi s i; x.2.put (.read x.1))

/-! ### The beat boundary (R336 to R340) -/

/-- R339: the boundary of a pending resynchronisation: the whole multiple m of 8,000 ns of domain 0 and its counter value. -/
def State.resyncAt (s : State) : Int × Wide :=
  let d := s.domain 0
  let base := if s.time.beatAt + 2499 < d.ca then d.ca else s.time.beatAt + 2499
  let m := d.at base / nsT 8000 + 1
  (m, d.when (m * nsT 8000))

/-- R336, R339: the counter value at which the running beat ends. -/
def State.boundaryAt (s : State) : Wide :=
  if s.time.resync then s.resyncAt.2 else (s.domain 0).when ((s.beatIndex + 1) * nsT 8000 + s.time.err / 10)

/-- R337: E moves towards 0 by at most 1.6 ns in a beat. -/
def slew (e : Int) : Int := if 1048576 < e then e - 1048576 else if e < -1048576 then e + 1048576 else 0

/-- R340: a stored beat number moved by m − n − 1. -/
def moveBeat (d : Beat) (b : Beat) : Beat := b + d

/-- R340: a hook request moved. -/
def HookReq.move (d : Beat) (r : HookReq) : HookReq := { r with queued := r.queued + d }

/-- R340: an engine's hook requests and fault window moved. -/
def Engine.move (d : Beat) (g : Engine) : Engine :=
  { g with hookPart := g.hookPart.map (HookReq.move d), hookOpen := g.hookOpen.map (HookReq.move d),
           item := g.item.map (fun i => { i with hook := i.hook.map (HookReq.move d) }), faults := g.faults.map (moveBeat d) }

/-- R340: LAST_ACC of every stream of a plane moved. -/
def Plane.move (d : Beat) (p : Plane) : Plane :=
  (p.ents .stream).foldl (fun p e =>
    if strValid e.2 then p.wr (Space.lastAcc.key e.1) [wd (p.rd .lastAcc e.1) 0 + d.truncate 32] else p) p

/-- R340: the stored beat numbers of intervals are moved, so that beat n counts as one beat; the model's own marks of the copy
queues and table commands move with them. -/
def rebase (s : State) (d : Beat) : State :=
  let v := fun (e : Nat × List Word) => if e.1 / 2 ^ 20 = Space.lastAcc.ctorIdx then (e.1, e.2.map (fun w => w + d.truncate 32)) else e
  let q := fun (l : List CopyRec) => l.map (fun r => { r with beat := r.beat + d, parts := r.parts.map v })
  let t := s.twin
  { s with
    ports := SMap.mapv {} (fun p => { p with hold := match p.hold with | .held b => .held (b + d) | h => h }) s.ports,
    eng := SMap.mapv {} (fun g => g.move d) s.eng,
    twin := { t with
      a := t.a.move d, b := t.b.move d, exactQ := q t.exactQ, lazyQ := q t.lazyQ,
      mirror := SMap.mapv {} (fun m => { m with lastAcc := (m.lastAcc + d.toNat) % 2 ^ 32 }) t.mirror,
      cmds := t.cmds.map (fun c => { c with beat := c.beat + d }) },
    gw := { s.gw with
      tun := SMap.mapv {} (fun t => { t with first := t.first + d }) s.gw.tun,
      can := SMap.mapv {} (fun c => { c with tx := c.tx.map (fun x => { x with beat := x.beat + d }) }) s.gw.can } }

/-- A signed number as 32 bits, saturating. -/
def sat32 (v : Int) : Word := BitVec.ofInt 32 (max (-2147483648) (min 2147483647 v))

/-- R339, R340: the boundary into beat m. -/
def resyncBoundary (s : State) : State :=
  let n := s.beat
  let x := s.resyncAt
  let m := BitVec.ofInt 48 x.1
  let w := fun (b : Beat) => [BitVec.ofNat 32 b.toNat, BitVec.ofNat 32 (b.toNat / 2 ^ 32)]
  let jumped := if ahead m (n + 1) then some n else none
  let s := { s with time := { s.time with beat := m, beatAt := x.2, err := 0, resync := false, jumped } }
  let s := rebase s (m - n - 1)
  let s := (s.flag .TIME_EVENT .TIME_IRQ_EN 0).emitIf (s.rbit .TIME_CTRL 0) 0x80 0 0 (w n ++ w m ++ [sat32 s.time.step])
  let s := if ahead m (n + 1) then trigSkips s 4 else s
  (List.range 22).foldl (fun s k => if (s.port k).gate.en then gateStart s k m else s) s

/-- The beat number of the beat that begins, with the counter at its boundary's instant or beyond (R336, R337, R339). -/
def beatBegin (s : State) : State :=
  let c := s.boundaryAt
  let s := { s with time := { s.time with cnt := if s.time.cnt < c then c else s.time.cnt } }
  if s.time.resync then resyncBoundary s
  else { s with time := { s.time with beat := s.beat + 1, beatAt := c, err := slew s.time.err, jumped := none } }

end Sys2Proof.Machine
end

