-- ==== Sys2Proof/Machine/Commit.lean ====
section
/-! DEFINITION. Configuration sets: the prepared bank, the commit checks, resource ownership, the commit step, CANCEL and DISCARD,
and the fingerprint (R71, R176, R199, R206, R280, R342, R422, R480 to R484, R487, R488). -/

namespace Sys2Proof.Machine

/-! ### The prepared set (R480, R482) -/

/-- A register by address takes a value. -/
def setAddr (s : State) (a : Nat) (v : Word) : State :=
  match Reg.at? a with
  | some (r, i, j) => s.setReg r v i j
  | none => s

/-- The prepared registers are a copy of the active ones, in the planes too. -/
def dropPrep (s : State) : State := { s with prep := [], twin := s.twin.setPrep [] }

/-- The prepared register records become active and the prepared bank a copy of the active one. -/
def commitRegs (s : State) : State := dropPrep (s.prep.foldl (fun s e => setAddr s e.1 e.2) s)

/-! ### Check 3: the rejection rules -/

/-- A failing register: its address, if the condition holds. -/
def failAt (b : Bool) (r : Reg) (i : Nat := 0) (j : Nat := 0) : List Nat := if b then [r.addr i j] else []

/-- R71: is a node one with BASE_LEN = 0, LEN_VAR = 0, no enabled extract, PRES_EN = 0 and DEFAULT_NEXT = 0. -/
def State.nodeEmpty (v : State) (i : Nat) : Bool :=
  v.rfld .PAR_NODE_LEN 0 8 i == 0 && !v.rbit .PAR_NODE_LEN 15 i && !v.rbit .PAR_NODE_SEL 15 i && v.rfld .PAR_NODE_SEL 8 7 i == 0 &&
    (List.range 4).all (fun e => !v.rbit .PAR_NODE_EXT 7 i e)

/-- The next codes of a node: those of its valid transition entries, with their registers, and DEFAULT_NEXT. -/
def State.nodeNexts (v : State) (i : Nat) : List (Nat × Nat) :=
  ((List.range 256).filter (fun j => v.rbit .PAR_TRANS_CTL 31 j && v.rfld .PAR_TRANS_CTL 0 6 j == i)).map
    (fun j => (v.rfld .PAR_TRANS_CTL 8 7 j, Reg.addr .PAR_TRANS_CTL j 0)) ++
    [(v.rfld .PAR_NODE_SEL 8 7 i, Reg.addr .PAR_NODE_SEL i 0)]

/-- The nodes that a walk can reach from a set, after `n` more steps. -/
def State.nodeReach (v : State) : Nat → List Nat → List Nat
  | 0, l => l
  | n + 1, l => State.nodeReach v n (l ++ ((l.flatMap v.nodeNexts).map (·.1)).filter (fun c => decide (c < 64))).eraseDups

/-- R71: the failing registers of the parse graph. -/
def rejPar (v : State) : List Nat :=
  let ports := List.range 24
  let starts := ports.map (fun p => v.rfld .PAR_PORT_START 0 6 p)
  let reach := v.nodeReach 64 starts.eraseDups
  ports.flatMap (fun p => failAt (v.nodeEmpty (v.rfld .PAR_PORT_START 0 6 p)) .PAR_PORT_START p) ++
    (List.range 64).flatMap (fun i => (List.range 4).flatMap (fun e =>
      let d := v.rfld .PAR_NODE_EXT 18 6 i e
      failAt (v.rbit .PAR_NODE_EXT 7 i e && (decide (d < 4) || decide (64 < d + v.rfld .PAR_NODE_EXT 8 4 i e + 1))) .PAR_NODE_EXT i e)) ++
    (reach.flatMap v.nodeNexts).flatMap (fun x => if x.1 < 64 ∧ v.nodeEmpty x.1 then [x.2] else [])

/-- The gate list that a set of registers gives port `n`. -/
def State.gateOf (v : State) (n : Nat) : GateList :=
  let len := v.rfld .TM_GATE_CFG 8 9 n
  { en := v.rbit .TM_GATE_CFG 0 n, len, cycle := v.rfld .TM_GATE_CYCLE 0 16 n,
    base := BitVec.ofNat 48 (v.reg64 .TM_GATE_BASE_LO .TM_GATE_BASE_HI n),
    ents := (List.range (min len 256)).map (fun e => (v.rfld .TM_GATE_ENT_STATE 0 8 n e, v.rfld .TM_GATE_ENT_IVL 0 30 n e)) }

/-- R199, R206: the failing registers of the egress scheduler. -/
def rejTm (v : State) : List Nat :=
  ((List.range 22).filter v.hasPort).flatMap (fun n =>
    let g := v.gateOf n
    if !g.en then []
    else
      failAt (g.len == 0 || decide (256 < g.len)) .TM_GATE_CFG n ++
      (List.range g.ents.length).flatMap (fun e => failAt (decide ((g.ents.getD e (0, 0)).2 < 32)) .TM_GATE_ENT_IVL n e) ++
      failAt (decide (g.cycle * 8000 < g.ents.foldl (fun a e => a + e.2) 0)) .TM_GATE_CYCLE n) ++
    (List.range 1024).flatMap (fun m => failAt (decide (v.rfld .TM_POL_PIR 0 24 m < v.rfld .TM_POL_CIR 0 24 m)) .TM_POL_PIR m)

/-- R280: an enabled tunnel's PSID equals the LSID of an enabled tunnel. -/
def rejGw (v : State) : List Nat :=
  let on := (List.range 16).filter (fun t => v.rbit .GW_TUN_CTRL 0 t)
  on.flatMap (fun t => failAt (on.any (fun u =>
    v.reg64 .GW_TUN_PSID_LO .GW_TUN_PSID_HI t == v.reg64 .GW_TUN_LSID_LO .GW_TUN_LSID_HI u)) .GW_TUN_PSID_LO t)

/-- R342: the failing registers of the TRIG channels. -/
def rejTime (v : State) : List Nat :=
  (List.range 16).flatMap (fun t =>
    let p := v.reg .TIME_TRIG_PERIOD t
    let w := v.reg .TIME_TRIG_WIDTH t
    failAt (decide (p.toNat < 1000)) .TIME_TRIG_PERIOD t ++ failAt (decide (w.toNat < 32) || decide (p ≤ w)) .TIME_TRIG_WIDTH t)

/-- R422: two enabled snoopers name one handle. -/
def rejChk (v : State) : List Nat :=
  let on := (List.range 16).filter (fun u => v.rbit .CHK_CFG 0 u)
  on.flatMap (fun u => failAt (on.any (fun w => decide (w < u) && v.rfld .CHK_CFG 16 12 w == v.rfld .CHK_CFG 16 12 u)) .CHK_CFG u)

/-- R480 check 3: the first failing register of a set, lowest address first. -/
def State.reject (v : State) : Option Nat :=
  (rejPar v ++ rejTm v ++ rejGw v ++ rejTime v ++ rejChk v).foldl (fun (b : Option Nat) a =>
    match b with | none => some a | some x => some (min x a)) none

/-! ### Check 4: resource ownership (R487, R488, R176) -/

/-- R487: the claimants of a resource in a set: kind and index. -/
def State.claimants (v : State) (r : Nat) : List (Nat × Nat) :=
  let c := fun (b : Bool) (k i : Nat) => if b then [(k, i)] else []
  if r < 16 then c (v.rbit .TIME_TRIG_CFG 0 r && !v.rbit .TIME_TRIG_CFG 5 r) 2 r
  else if r < 32 then
    let i := r - 16
    c (v.rbit .GLB_GPIO_OE i) 1 i ++ c (v.rbit .TIME_TRIG_CFG 0 i && v.rbit .TIME_TRIG_CFG 5 i) 2 i ++
      c (decide (8 ≤ i) && v.rbit .TIME_CAP_CFG 0 (i - 8) && v.rbit .TIME_CAP_CFG 3 (i - 8)) 3 (i - 8)
  else
    let m := r - 32
    (List.range 16).flatMap (fun t => c (v.rbit .TIME_TRIG_CFG 0 t && v.rfld .TIME_TRIG_CFG 6 5 t == m) 2 t) ++
      c (v.rbit .TIME_CMP_CFG 0 m) 4 m

/-- The register by which a claimant claims. -/
def claimAddr (k i : Nat) : Nat :=
  match k with
  | 1 => Reg.addr .GLB_GPIO_OE 0 0
  | 2 => Reg.addr .TIME_TRIG_CFG i 0
  | 3 => Reg.addr .TIME_CAP_CFG i 0
  | _ => Reg.addr .TIME_CMP_CFG i 0

/-- Block base of an address (R522). -/
def blockBase (a : Nat) : Nat := if a < 0x100000 then a / 0x10000 * 0x10000 else a / 0x100000 * 0x100000

/-- A failed check: code, failing register, resource, owner kind and owner index. -/
structure CfgFail where
  code : Nat
  addr : Nat := 0
  res : Nat := 0
  kind : Nat := 0
  idx : Nat := 0
deriving DecidableEq, Repr

/-- UPD_RES_OWNER of a claimant. -/
def ownerCode (c : Nat × Nat) : Nat := c.1 + 16 * c.2

/-- R488: the owner named among several claimants: the one that holds the resource in the set in force, else the one of the lowest
kind. -/
def State.ownerAmong (s : State) (r : Nat) (l : List (Nat × Nat)) : Nat × Nat :=
  match l.find? (fun c => ownerCode c == SMap.get 0 s.upd.res r) with
  | some c => c
  | none => l.foldl (fun b c => if c.1 < b.1 then c else b) (l.headD (0, 0))

/-- The first of a list of registers at which the sum of their values goes beyond a limit. -/
def overAt (lim : Nat) : List (Nat × Nat) → Nat → Option Nat
  | [], _ => none
  | (a, v) :: t, sum => if lim < sum + v then some a else overAt lim t (sum + v)

/-- R176: the reservations of queues and of ports in a set. -/
def State.rsvCells (v : State) : List (Nat × Nat) :=
  ((List.range 192).filter (fun q => v.hasPort (q / 8))).map (fun q => (Reg.addr .BUF_Q_CFG q 0, v.rfld .BUF_Q_CFG 0 16 q))
/-- R176: the reservations of holding-area blocks in a set. -/
def State.rsvHold (v : State) : List (Nat × Nat) :=
  ((List.range 24).filter v.hasPort).map (fun n => (Reg.addr .BUF_HOLD_RSV n 0, v.rfld .BUF_HOLD_RSV 0 12 n))

/-- R480 check 4 on the set `v`. -/
def State.conflict (s v : State) : Option CfgFail :=
  match (List.range 64).find? (fun r => decide (2 ≤ (v.claimants r).length)) with
  | some r =>
    let l := v.claimants r
    let o := s.ownerAmong r l
    let x := (l.filter (· != o)).headD o
    some { code := 13, addr := claimAddr x.1 x.2, res := r, kind := o.1, idx := o.2 }
  | none =>
    match overAt 28672 v.rsvCells 0 with
    | some a => some { code := 13, addr := a, res := 64 }
    | none => (overAt 2048 v.rsvHold 0).map (fun a => { code := 13, addr := a, res := 65 })

/-- R487: the ownership table of a set. -/
def State.resTable (v : State) : SMap Nat :=
  let t := (List.range 64).foldl (fun (m : SMap Nat) r =>
    match v.claimants r with
    | [] => m
    | c :: _ => SMap.set 0 m r (ownerCode c)) []
  SMap.set 0 (SMap.set 0 t 64 (v.rsvCells.foldl (fun a e => a + e.2) 0)) 65 (v.rsvHold.foldl (fun a e => a + e.2) 0)

/-! ### Commit requests (R480, R481) -/

/-- RESULT of the last request. -/
def cfgResult (s : State) (code : Nat) : State := s.setRfld .UPD_CFG_STATUS 8 8 code

/-- A request has failed a check. -/
def cfgFailed (s : State) (src : Option (Nat × Nat)) (epoch : Word) (f : CfgFail) : State :=
  let s := (cfgResult s f.code).flag .UPD_EVENT .UPD_IRQ_EN 7
  let named := f.code == 12 || f.code == 13
  let b := blockBase f.addr
  let item := f.addr - b
  let s := if named then
      (s.setReg .UPD_CFG_REJ (BitVec.ofNat 32 (b / 65536 + f.res * 65536 + f.kind * 2 ^ 24))).setReg .UPD_CFG_REJ_ITEM
        (BitVec.ofNat 32 (item + f.idx * 65536))
    else s
  match src with
  | none => s
  | some (r, i) =>
    if 2 ≤ r then s
    else cmdDone s r i 0 f.code (data := if named then [epoch, 0, BitVec.ofNat 32 (b / 65536), BitVec.ofNat 32 item,
      BitVec.ofNat 32 (f.res + f.kind * 256 + f.idx * 65536)] else [epoch, 0, 0, 0, 0])

/-- R480: a commit request. -/
def cfgRequest (s : State) (src : Option (Nat × Nat)) (epoch : Word) (atBeat : Bool) (b : Beat) : State :=
  if s.upd.cfg.isSome then cfgFailed s src epoch { code := 16 }
  else { s with upd := { s.upd with cfg := some { src, epoch, atBeat, beat := b, checked := false } } }

/-- A CLASS `c` descriptor with operation `op`. -/
def cmdDesc (d : List Word) (c op : Nat) : List Word := wsetFld (wsetFld d 0 12 3 c) 0 0 4 op

/-- CFG_COMMIT (R480, R492). -/
def execCfgCommit (r : Fin 2) (idx : BitVec 16) (desc data : List Word) (s : State) : Ans :=
  onDie s (fun s => onCmd s r idx (cmdDesc desc 2 1) (fun s =>
    cfgRequest s (some (r, idx.toNat)) (wd data 0) (bit (wd desc 0) 8)
      (BitVec.ofNat 48 (wfld desc 1 16 16 * 2 ^ 32 + (wd desc 2).toNat))))

/-- R480: checks 2 to 5 of a request, on the prepared set. -/
def State.cfgJudge (s : State) (q : CfgReq) : Option CfgFail :=
  if q.epoch ≤ s.reg .KEEP_CFG_EPOCH_HI then some { code := 14 }
  else
    let v := commitRegs s
    match v.reject with
    | some a => some { code := 12, addr := a }
    | none => match s.conflict v with
      | some f => some f
      | none => if q.atBeat && !ahead q.beat s.beat then some { code := 15 } else none

/-- COMMIT_CHECK_DONE (R480): the checks of the request end: it is PENDING, or it has failed. -/
def execCommitCheckDone (s : State) : Ans :=
  onDie s (fun s =>
    match s.upd.cfg with
    | none => s
    | some q =>
      if q.checked then s
      else match s.cfgJudge q with
        | some f => cfgFailed { s with upd := { s.upd with cfg := none } } q.src q.epoch f
        | none =>
          let s := cfgResult { s with upd := { s.upd with cfg := some { q with checked := true, src := none } } } 0
          match q.src with
          | some (r, i) => if r < 2 then cmdDone s r i 0 0 else s
          | none => s)

/-- R481: CANCEL withdraws the request; a COMMIT command still being checked ends with a code that the manual does not state (log
entry 1). The code of R493. -/
def cfgCancel (s : State) : Nat × State :=
  match s.upd.cfg with
  | none => (20, s)
  | some q =>
    let s := { s with upd := { s.upd with cfg := none } }
    match q.src with
    | some (r, i) => let x := s.fresh; (0, if r < 2 then cmdDone x.2 r i 0 (x.1.toNat % 256) else s)
    | none => (0, s)

/-- CFG_CANCEL (R481). -/
def execCfgCancel (r : Fin 2) (idx : BitVec 16) (desc _data : List Word) (s : State) : Ans :=
  onDie s (fun s => onCmd s r idx (cmdDesc desc 2 2) (fun s => let x := cfgCancel s; cmdDone x.2 r idx.toNat 0 x.1))

/-- The entries of a memory of a plane become those of another. -/
def Plane.copySpace (p : Plane) (src dst : Space) : Plane :=
  let p := { p with mem := SMap.keep (fun k => k / 2 ^ 20 != dst.ctorIdx) p.mem }
  (p.ents src).foldl (fun p e => p.wr (dst.key e.1) e.2) p

/-- R160, R161: the prepared rule bank becomes a copy of the active one, in both planes. -/
def rulesCopy (s : State) : State :=
  let f := fun (p : Plane) => p.copySpace (ruleSpace s.ruleBank) s.prepBank
  { s with twin := { s.twin with a := f s.twin.a, b := f s.twin.b } }

/-- R161: rules 256 k to 256 k + 255 of the prepared bank become those of the active one, in both planes. -/
def rulesChunk (s : State) (k : Nat) : State :=
  let f := fun (p : Plane) => (List.range 256).foldl (fun p i =>
    p.wr (s.prepBank.key (256 * k + i)) (p.rd (ruleSpace s.ruleBank) (256 * k + i))) p
  { s with twin := { s.twin with a := f s.twin.a, b := f s.twin.b } }

/-- R481: DISCARD, with its code. -/
def cfgDiscard (s : State) : Nat × State :=
  if s.upd.cfg.isSome then (16, s) else (0, rulesCopy (dropPrep s))

/-- CFG_DISCARD (R481). -/
def execCfgDiscard (r : Fin 2) (idx : BitVec 16) (desc _data : List Word) (s : State) : Ans :=
  onDie s (fun s => onCmd s r idx (cmdDesc desc 2 3) (fun s => let x := cfgDiscard s; cmdDone x.2 r idx.toNat 0 x.1))

/-- R480: a write to UPD_CFG_CMD. -/
def cfgCmdWrite (s : State) (w : Word) : State :=
  match bit w 0, bit w 2, bit w 3 with
  | true, false, false =>
    cfgRequest s none (s.reg .UPD_CFG_EPOCH_NEXT) (bit w 1) (BitVec.ofNat 48 (s.reg64 .UPD_CFG_BEAT_LO .UPD_CFG_BEAT_HI))
  | false, true, false => let x := cfgCancel s; cfgResult x.2 x.1
  | false, false, true => let x := cfgDiscard s; cfgResult x.2 x.1
  | false, false, false => s
  | _, _, _ => s.flag .UPD_EVENT .UPD_IRQ_EN 13

/-! ### The commit step (R20 step 4, R482) -/

/-- R199: a meter whose rates or sizes changed starts with full buckets. -/
def meterFull (o s : State) (m : Nat) : State :=
  if [Reg.TM_POL_CIR, .TM_POL_CBS, .TM_POL_PIR, .TM_POL_PBS].any (fun r =>
      let x := (o.reg r m) ^^^ (s.reg r m)
      (if r = .TM_POL_CIR then x &&& 0xFFFFFF else x) != 0) then
    s.setAct (s.act.wr (Space.meter.key m)
      [BitVec.ofNat 32 (s.rfld .TM_POL_CBS 0 20 m * 256), BitVec.ofNat 32 (s.rfld .TM_POL_PBS 0 20 m * 256)])
  else s

/-- R424: a snooper whose EN is set or whose STREAM changes seeks; one whose EN is cleared is off. -/
def chkCommit (o s : State) (u : Nat) : State :=
  if !s.rbit .CHK_CFG 0 u then s.setChk u {}
  else if !o.rbit .CHK_CFG 0 u || o.rfld .CHK_CFG 16 12 u != s.rfld .CHK_CFG 16 12 u then s.setChk u { st := 1 }
  else s

/-- R208, R209: a port's new gate list waits for its takeover; with EN = 0 every gate is open at once. -/
def gateCommit (o s : State) (n : Nat) : State :=
  let g := s.gateOf n
  if g = o.gateOf n then s
  else if g.en then s.updPort n (fun p => { p with gatePend := some g })
  else (accruePort s n).updPort n (fun p => { p with gate := g, gatePend := none, gateEnt := 0 })

/-- R343: a channel whose EN is set or of which a field changes is armed; one whose EN is cleared becomes inactive. -/
def trigCommit (o s : State) (t : Nat) : State :=
  if [Reg.TIME_TRIG_CFG, .TIME_TRIG_START_LO, .TIME_TRIG_START_HI, .TIME_TRIG_PERIOD, .TIME_TRIG_PERIOD_FRAC, .TIME_TRIG_WIDTH].any
      (fun r => o.reg r t != s.reg r t) then trigArm s t
  else s

/-- R416, R417: recording starts or stops with REC_CTRL.EN. -/
def recCommit (o s : State) : State :=
  match o.rbit .REC_CTRL 0, s.rbit .REC_CTRL 0 with
  | false, true => recStart s
  | true, false => recStop s
  | _, _ => s

/-- What follows from new configuration registers in force, those of `o` before. -/
def cfgEffects (o s : State) : State :=
  let s := (List.range 16).foldl (chkCommit o) s
  let s := (List.range 22).foldl (gateCommit o) s
  let s := (List.range 16).foldl (trigCommit o) s
  recCommit o s

/-- R464: the epoch ceiling rises, mirror first. -/
def raiseEpoch (s : State) (e : Word) : State := (mirrorAppend s 32 false e).setReg .KEEP_CFG_EPOCH_HI e

/-- R482: the prepared set becomes active. -/
def commitSet (s : State) (epoch : Word) : State :=
  let s := (List.range 24).foldl accruePort s
  let s := keepOld s (SMap.keys s.prep)
  let o := s
  let s := commitRegs s
  let s := { s with ruleEpoch := s.ruleEpoch + 1, ruleCopy := 8, graphEpoch := s.graphEpoch + 1 }
  let s := cfgEffects o ((List.range 1024).foldl (meterFull o) s)
  let s := if s.rbit .FW_CT_CTRL 2 then flushOrDefer s 24 else s
  let s := if s.rbit .TM_CTRL 1 then s else { s with pics := [], picFull := false }
  let s := (List.range 24).foldl accruePort s
  let s := raiseEpoch (s.setReg .UPD_CFG_EPOCH epoch) epoch
  let s := { s with upd := { s.upd with cfg := none, res := s.resTable } }
  (s.flag .UPD_EVENT .UPD_IRQ_EN 6).emitIf (s.rbit .UPD_CTRL 0) 0xD2 0 0 [epoch]

/-- Step 4 of R20: the pending request that is due at this boundary. -/
def commitStep (s : State) : State :=
  match s.upd.cfg with
  | none => s
  | some q => if q.checked && (!q.atBeat || !ahead q.beat s.beat) then commitSet s q.epoch else s

/-! ### The fingerprint (R483, R484) -/

/-- Factory values of the wake-configuration words (R458). -/
def wakeFactory (a : Nat) : Word := SMap.get 0 State.reset.regs a

/-- R483: a canonical record. -/
def canon (block kind table addr : Nat) (ws : List Word) : List Byte :=
  leBytes block 2 ++ [BitVec.ofNat 8 kind, BitVec.ofNat 8 table] ++ leBytes addr 4 ++ wordsBytes ws

/-- R483: the state fields of an entry are zero (R82, R104, R267). -/
def stateZero (t : Nat) (e : List Word) : List Word :=
  match t with
  | 0 => wsetFld e 2 17 13 0
  | 1 => wset (wset (wsetFld (wsetFld (wsetFld e 6 28 2 0) 8 15 1 0) 10 20 1 0) 11 0) 12 0
  | 7 => wset (wset (wset (wsetFld e 5 4 1 0) 6 0) 7 0) 8 0
  | _ => e

/-- The configuration entries of the tables: table, index, words; `bank` is the memory of table 5. Seeds have the index 0x10000. -/
def State.cfgTabs (s : State) (bank : Space) : List (Nat × Nat × List Word) :=
  let p := s.act
  let t := fun (n : Nat) (sp : Space) => ((p.ents sp).filter (fun e => tblValid n e.2)).map (fun e =>
    (n, e.1, stateZero n ((List.range (tblWords n)).map (wd e.2))))
  ((t 0 .fdb).filter (fun e => bit (wd e.2.2 1) 29)) ++ t 1 .stream ++ t 2 .vlan ++ t 3 .group ++ t 4 .route ++ t 5 bank ++
    t 7 .filter ++ [(0, 0x10000, (p.rd .seed 0).take 4), (1, 0x10000, (p.rd .seed 2).take 4), (4, 0x10000, (p.rd .seed 3).take 4)].filter (fun e => !e.2.2.isEmpty)

/-- R483: the records of a set of registers and a rule bank. -/
def State.fpRecords (s : State) (bank : Space) : List (List Byte) :=
  let regs := s.regs.filterMap (fun e =>
    match Reg.at? e.1 with
    | none => none
    | some (r, _, _) =>
      let b := blockBase e.1
      if r.row.cfg then some (canon (b / 65536) 0 0 (e.1 - b) [e.2 &&& r.row.mask])
      else if r.row.acc == .rwk && e.2 != wakeFactory e.1 then some (canon (b / 65536) 3 0 (e.1 - b) [e.2 &&& r.row.mask])
      else none)
  let tabs := (s.cfgTabs bank).map (fun e => canon (if e.1 = 5 then 0x40 else if e.1 = 7 then 0x70 else 0x30) 1 e.1 e.2.1 e.2.2)
  let imgs := (List.range 16).filterMap (fun e => ((s.engine e).image).map (fun i =>
    canon 0x80 2 0 e [i.crc]))
  regs ++ tabs ++ imgs

/-- R484: the sum of the hashes of the records. -/
def fpSum (l : List (List Byte)) : Wide := l.foldl (fun a b => a + sha256Low b) 0

/-- R484: UPD_FP. -/
def State.fpActive (s : State) : Wide := fpSum (s.fpRecords (ruleSpace s.ruleBank))

/-- R484: UPD_FP_PREP. -/
def State.fpPrepared (s : State) : Wide :=
  fpSum ((commitRegs s).fpRecords (if s.ruleCopy = 0 then s.prepBank else ruleSpace s.ruleBank))

end Sys2Proof.Machine
end

