-- ==== Sys2Proof/Machine/Keys.lean ====
section
/-! DEFINITION. The Kennel: blobs, slot loads and swaps, the key store and its updates, and the key commands (R397 to R407). -/

namespace Sys2Proof.Machine

/-! ### Blobs (R397, R398) -/

/-- R397: words 0 to 3 of the blob of a record. -/
def KeyRec.header (a : KeyRec) : List Word :=
  let b := fun (x : Bool) (n : Nat) => if x then 2 ^ n else 0
  [0x4C424E4B, BitVec.ofNat 32 (1 + b a.klen 8),
   BitVec.ofNat 32 (a.use % 16 + b a.engine 4 + b a.exportable 5 + b a.preload 6 + a.keyId % 65536 * 65536), a.version]

/-- The first unwrapped semiblock: blob bytes 0x08 to 0x0F. -/
def KeyRec.bound (a : KeyRec) : List Byte := wordsBytes (a.header.drop 2)

/-- The attributes of a blob. -/
def blobRec (d : List Word) : KeyRec :=
  { klen := bit (wd d 1) 8, use := wfld d 2 0 4, engine := bit (wd d 2) 4, exportable := bit (wd d 2) 5, preload := bit (wd d 2) 6,
    keyId := wfld d 2 16 16, version := wd d 3 }

/-- R398: MAGIC, FORMAT and zero fields are correct and the attribute rules hold. -/
def blobOk (d : List Word) (plain : Bool) : Bool :=
  let a := blobRec d
  wd d 0 == 0x4C424E4B && wfld d 1 0 8 == 1 && wfld d 1 9 23 == 0 && wfld d 2 7 9 == 0 &&
    (a.use == 1 || a.use == 2 || a.use == 4 || a.use == 8) &&
    (!(a.use == 4) || !a.klen) && (!(a.use == 2 || a.use == 8) || a.klen) && (!a.engine || a.use == 4) &&
    (plain || a.klen || [12, 13, 14, 15].all (fun i => wd d i == 0))

/-- Bytes of a key. -/
def KeyRec.keyLen (a : KeyRec) : Nat := if a.klen then 32 else 16

/-- R398: the key that an unwrapped byte string holds, when it is bound to the attributes. -/
def KeyRec.keyOf (a : KeyRec) (p : List Byte) : Option (List Byte) :=
  if p.take 8 = a.bound ∧ p.length = 8 + a.keyLen then some (p.drop 8) else none

/-- R396: the WRAPPED field of a record under a wrapping key. -/
def KeyRec.wrapUnder (a : KeyRec) (kek key : List Byte) : List Byte := slice (keyWrap kek (a.bound ++ key)) 0 48

/-- The bytes of WRAPPED that an unwrap reads. -/
def KeyRec.wrapBytes (a : KeyRec) (w : List Byte) : List Byte := w.take (16 + a.keyLen)

/-- R400: the key of a stored record. -/
def KeyRec.clear (a : KeyRec) : Option (List Byte) :=
  match keyUnwrap Config.rootKek (a.wrapBytes a.wrapped) with
  | none => none
  | some p => a.keyOf p

/-! ### Loads and swaps (R400 to R402) -/

/-- R388: key work in which `n` lane mismatches of core `c` were met. -/
def keyWork (s : State) (n : Fin 3) (c : Fin 4) : State :=
  match n with
  | 0 => s
  | 1 => laneMismatch s c 4
  | 2 => laneMismatch (laneMismatch s c 4) c 4

/-- A slot takes a key of its record. -/
def slotFill (s : State) (k : Nat) (a : KeyRec) (key : List Byte) : State := s.setSlot k ((s.slot k).filled a key)

/-- R400: a load of slot `k` from its record: READY with the key, or UNUSABLE. -/
def slotLoad (s : State) (k : Nat) (ok : Bool) : Bool × State :=
  match SMap.find? s.cry.recs k with
  | none => (false, s.setSlot k ((s.slot k).emptied .empty {}))
  | some a =>
    match (if ok then a.clear else none) with
    | some key => (true, slotFill s k a key)
    | none => (false, s.setSlot k ((s.slot k).emptied .unusable a))

/-- The LOAD command of slot `k` in progress on a command ring, if any. -/
def State.loadCmd (s : State) (k : Nat) : List (Nat × Nat) :=
  [0, 1].flatMap (fun r => ((s.ring (64 + r)).fetched.filter (fun d =>
    d.state == 1 && wfld d.words 0 12 3 == 3 && wfld d.words 0 0 4 == 5 && wfld d.words 1 0 6 == k)).map (fun d => (r, d.idx)))

/-- SLOT_LOAD_DONE (R388, R400): the load at the front of the queue ends; with the lane mismatches that its key work met. -/
def execSlotLoadDone (k : Fin 64) (work : KeyWork) (s : State) : Ans :=
  onDie s (fun s =>
    let lanes := work.lanes
    match s.cry.loadQ with
    | [] => s
    | q :: rest =>
      if q ≠ k.val then s
      else
        let s := keyWork s lanes work.core
        let x := slotLoad { s with cry := { s.cry with loadQ := rest } } q (lanes != 2)
        (s.loadCmd q).foldl (fun s c => cmdDone s c.1 c.2 0 (if x.1 then 0 else if lanes = 2 then 8 else 3)) x.2)

/-- R402: at a boundary a staged replacement takes its slot; without one the slot is emptied. -/
def keySwap (s : State) (k : Nat) : State :=
  let v := s.slot k
  match v.swapAt with
  | none => s
  | some b =>
    if ahead b s.beat then s
    else match v.next with
      | some (a, key) => s.setSlot k (({} : Slot).filled a key)
      | none => s.setSlot k {}

/-- R402: the swaps of a boundary. -/
def keySwaps (s : State) : State := (List.range 64).foldl keySwap s

/-- R401: does a copy of a slot fail its check: an uncorrectable word, or a check value other than its SLOT_CHK. -/
def copyFails (bad : Bool) (key : List Byte) (chk : Word) : Bool := bad || slotChk key != chk

/-- R401: the slot scrubber checks one slot: a copy that fails is rewritten from the other; with both it is SLOT_BAD. A check cut off by
a second lane mismatch (R388) finds nothing. -/
def slotScrub (s : State) (bad0 bad1 : Bool) (lanes : Fin 3) (core : Fin 4) : State :=
  if !s.rbit .CRY_CTRL 1 then s
  else
    let k := s.cry.scrub % 64
    let s := { s with cry := { s.cry with scrub := (k + 1) % 64 } }
    if (s.slot k).st != .ready then s
    else
      let s := keyWork s lanes core
      if lanes = 2 then s
      else
        let v := s.slot k
        match copyFails bad0 v.key v.chk, copyFails bad1 v.key1 v.chk1 with
        | false, false => s
        | true, false => s.setSlot k v.mend0
        | false, true => s.setSlot k v.mend1
        | true, true => slotBad s k

/-! ### The key store (R404 to R406) -/

/-- A key-store copy. -/
def Crypto.store (c : Crypto) (b : Bool) : Store := if b then c.storeB else c.storeA

/-- R405: a keep-domain pointer copy: SEQ and COPY, when valid. -/
def State.ksPtr (s : State) (r : Reg) : Option (Nat × Bool) :=
  if s.reg r 2 = crc32 (wordsBytes [s.reg r 0, s.reg r 1]) ∧ fld (s.reg r 1) 1 31 = 0 then
    some ((s.reg r 0).toNat, bit (s.reg r 1) 0) else none

/-- R405, R465: the mirror's copy of the pointer. -/
def State.ksMirror (s : State) : Option (Nat × Bool) := (s.upd.latest 33).map (fun r => ((wd r 1).toNat, bit (wd r 0) 6))

/-- R405: the pointer in force: the valid copy with the highest SEQ. -/
def State.ksForce (s : State) : Option (Nat × Bool) :=
  ([s.ksPtr .KEEP_KS_PTR0, s.ksPtr .KEEP_KS_PTR1, s.ksMirror].filterMap id).foldl (fun (b : Option (Nat × Bool)) x =>
    match b with
    | none => some x
    | some y => if y.1 < x.1 then some x else some y) none

/-- R406 steps 6 and 7: the keep-domain pointer copy with the lower SEQ is written, an invalid copy first. -/
def ptrWrite (s : State) (seq : Nat) (copy : Bool) : State :=
  let low := match s.ksPtr .KEEP_KS_PTR0, s.ksPtr .KEEP_KS_PTR1 with
    | none, _ => Reg.KEEP_KS_PTR0
    | _, none => Reg.KEEP_KS_PTR1
    | some a, some b => if b.1 < a.1 then Reg.KEEP_KS_PTR1 else Reg.KEEP_KS_PTR0
  let w0 := BitVec.ofNat 32 seq
  let w1 : Word := if copy then 1 else 0
  ((s.setReg low w0 0).setReg low w1 1).setReg low (crc32 (wordsBytes [w0, w1])) 2

/-- The start of a slot: EMPTY, STORED with its record's attributes, or UNUSABLE. -/
def slotStart (s : State) (st : SlotState) : State :=
  s.cry.recs.foldl (fun s e => s.setSlot e.1 { st, attr := e.2 }) s

/-- R397, R404: a record of a store copy as its 64 bytes; an absent one reads all 0xFF. -/
def keyRecBytes (recs : SMap KeyRec) (k : Nat) : List Byte :=
  match SMap.find? recs k with
  | none => List.replicate 64 0xFF
  | some a => wordsBytes a.header ++ slice a.wrapped 0 48

/-- R404: header bytes 0x00 to 0x2F of a store copy. Those that the rule names no field for are 0 (DESIGN CHOICE, log entry 77). -/
def Store.header (t : Store) : List Byte :=
  leBytes t.magic.toNat 4 ++ leBytes t.seq 4 ++ leBytes t.mask.toNat 8 ++ List.replicate 32 0

/-- R404: the SEAL of a store copy: the CMAC of the header and all records. -/
def Store.sealOf (t : Store) : List Byte :=
  cmac (sealKey Config.rootKek) (t.header ++ (List.range 64).flatMap (keyRecBytes t.recs))

/-- R404: the presence mask of a set of records. -/
def recMask (recs : SMap KeyRec) : Wide := recs.foldl (fun m e => m ||| BitVec.ofNat 64 (2 ^ e.1)) 0

/-- R404: a store copy of records with their sequence number, sealed. -/
def storeImage (seq : Nat) (recs : SMap KeyRec) : Store :=
  let t : Store := { magic := 0x54534E4B, seq, mask := recMask recs, recs, tag := [] }
  { t with tag := t.sealOf }

/-- R405: may the copy that the pointer in force names be used: its SEAL is valid and its SEQ equals the pointer's. -/
def Store.good (t : Store) (seq : Nat) : Bool := t.magic == 0x54534E4B && t.seq == seq && t.tag == t.sealOf

/-- R405, R400: at a start the store that the pointer in force names is taken, and the records with PRELOAD are loaded in slot
order; of a copy that fails every record counts as present but UNUSABLE, and none of its keys is used. `okA` and `okB` say whether a
copy's flash reads back. -/
def keyStart (s : State) (okA okB : Bool) : State :=
  match s.ksForce with
  | none =>
    let zero := fun (r : Reg) => s.reg r 0 == 0 && s.reg r 1 == 0 && s.reg r 2 == 0
    if s.ksMirror.isNone && zero .KEEP_KS_PTR0 && zero .KEEP_KS_PTR1 then { s with cry := { s.cry with ok := true } }
    else s.flag .CRY_EVENT .CRY_IRQ_EN 6
  | some (seq, b) =>
    let t := s.cry.store b
    let good := (if b then okB else okA) && t.good seq
    let recs := if good then t.recs else (List.range 64).map (fun k => (k, ({} : KeyRec)))
    let s := { s with cry := { s.cry with seq, copy := b, ok := good, recs } }
    if good then
      let s := slotStart s .stored
      s.cry.recs.foldl (fun s e => if e.2.preload then (slotLoad s e.1 true).2 else s) s
    else slotStart (s.flag .CRY_EVENT .CRY_IRQ_EN 3) .unusable

/-- R406: the records with an update's change applied. -/
def StoreUpd.apply (u : StoreUpd) (recs : SMap KeyRec) : SMap KeyRec :=
  match u.new with | some a => SMap.put recs u.slot a | none => SMap.erase recs u.slot

/-- R406: the store with a record changed is in force at the other copy. -/
def storeCommit (s : State) (u : StoreUpd) : State :=
  let seq := s.cry.seq + 1
  let b := !s.cry.copy
  let recs := u.apply s.cry.recs
  let t := storeImage seq recs
  let c := { s.cry with seq, copy := b, ok := true, recs }
  let s := { s with cry := if b then { c with storeB := t } else { c with storeA := t } }
  ptrWrite (mirrorAppend s 33 b (BitVec.ofNat 32 seq)) seq b

/-- R402: after its update a replacement or an erasure waits for its swap boundary; was the named beat late. -/
def stageSwap (s : State) (u : StoreUpd) : Bool × State :=
  let late := match u.at_ with | some b => !ahead b s.beat | none => false
  let b := match u.at_ with | some b => if late then s.beat + 1 else b | none => s.beat + 1
  (late, s.setSlot u.slot { s.slot u.slot with swapAt := some b, next := u.new.map (fun a => (a, u.key)) })

/-- KEY_STORE_UPDATE (R388, R406): the update in progress ends: the new store is in force, or a second failed check leaves the old one and
the copy erased; a second lane mismatch in its key work ends it too. -/
def execKeyStoreUpdate (x : StoreEnd) (s : State) : Ans :=
  onDie s (fun s =>
    match s.cry.upd with
    | [] => s
    | u :: rest =>
      let s := keyWork { s with cry := { s.cry with upd := rest } } x.work.lanes x.work.core
      let fin := fun (s : State) (code : Nat) => if u.owner.1 < 2 then cmdDone s u.owner.1 u.owner.2 0 code else s
      if x.work.lanes = 2 then fin s 8
      else if x.ok then
        let x := stageSwap (storeCommit s u) u
        fin x.2 (if x.1 then 9 else 0)
      else
        let s := { s with cry := if s.cry.copy then { s.cry with storeA := {} } else { s.cry with storeB := {} } }
        fin (s.flag .CRY_EVENT .CRY_IRQ_EN 3) 7)

/-! ### Key commands (R407) -/

/-- SLOT of a key command. -/
def keySlot (d : List Word) : Nat := wfld d 1 0 6
/-- AUX of a key command. -/
def keyAux (d : List Word) : Nat := wfld d 1 8 6
/-- R402: the named swap beat, with AT_BEAT. -/
def keyBeat (d : List Word) : Option Beat :=
  if bit (wd d 0) 8 then some (BitVec.ofNat 48 (wfld d 1 16 16 * 2 ^ 32 + (wd d 2).toNat)) else none

/-- A CLASS 3 descriptor with operation `op`. -/
def keyDesc (d : List Word) (op : Nat) : List Word := wsetFld (wsetFld d 0 12 3 3) 0 0 4 op

/-- R407: the key of the wrapping slot, or the code of the failure. A use of a STORED slot starts a load (R399). -/
def auxKey (s : State) (d : List Word) (rep : CipherReport) : (Nat ⊕ List Byte) × State :=
  let k := keyAux d
  let ready := (s.slot k).st == .ready && !rep.bothBad
  match useSlot s k useWrap rep with
  | (some key, s) => (.inr key, s)
  | (none, s) => (.inl (if ready then 4 else 1), s)

/-- A store update is asked for by the command `(r, idx)`; it runs when those before it have ended. -/
def storeAsk (s : State) (r idx slot : Nat) (a : Option KeyRec) (key : List Byte) (at_ : Option Beat) : State :=
  { s with cry := { s.cry with upd := s.cry.upd ++ [{ slot, new := a, key, owner := (r, idx), at_ }] } }

/-- A checked key is rewrapped under the root KEK and stored. -/
def keyStoreIt (s : State) (r idx : Nat) (d : List Word) (a : KeyRec) (key : List Byte) : State :=
  storeAsk s r idx (keySlot d) (some { a with wrapped := a.wrapUnder Config.rootKek key }) key (keyBeat d)

/-- IMPORT of R407. -/
def keyImport (s : State) (r idx : Nat) (d data : List Word) (lanes : Fin 3) (core : Fin 4) (aux : CipherReport) : State :=
  match auxKey s d aux with
  | (.inl c, s) => cmdDone s r idx 0 c
  | (.inr kek, s) =>
    if !blobOk data false then cmdDone s r idx 0 2
    else
      let s := keyWork s lanes core
      if lanes = 2 then cmdDone s r idx 0 8
      else
        let a := blobRec data
        match keyUnwrap kek (a.wrapBytes (slice (wordsBytes data) 16 48)) with
        | none => cmdDone s r idx 0 3
        | some p => match a.keyOf p with
          | none => cmdDone s r idx 0 3
          | some key => keyStoreIt s r idx d a key

/-- IMPORT (R407). -/
def execKeyImport (r : Fin 2) (idx : BitVec 16) (desc data : List Word) (lanes : Fin 3) (work : KeyUse) (s : State) : Ans :=
  onDie s (fun s => onCmd s r idx (keyDesc desc 1) (fun s => keyImport s r idx.toNat desc data lanes work.core work.aux))

/-- IMPORT_PLAIN of R407. -/
def keyImportPlain (s : State) (r idx : Nat) (d data : List Word) (lanes : Fin 3) (core : Fin 4) : State :=
  if s.rbit .GLB_LOCK 0 then cmdDone s r idx 0 6
  else if !blobOk data true then cmdDone s r idx 0 2
  else
    let s := keyWork s lanes core
    if lanes = 2 then cmdDone s r idx 0 8
    else
      let a := blobRec data
      keyStoreIt s r idx d a (slice (wordsBytes data) 16 a.keyLen)

/-- IMPORT_PLAIN (R407). -/
def execKeyImportPlain (r : Fin 2) (idx : BitVec 16) (desc data : List Word) (lanes : Fin 3) (core : Fin 4) (s : State) : Ans :=
  onDie s (fun s => onCmd s r idx (keyDesc desc 2) (fun s => keyImportPlain s r idx.toNat desc data lanes core))

/-- EXPORT of R407: the key of slot SLOT leaves under AUX. The use of a slot that is not READY fails (R399), with code 1 as of an AUX slot
that is not READY (DEDUCED, log entry 97). -/
def keyExport (s : State) (r idx : Nat) (d : List Word) (lanes : Fin 3) (core : Fin 4) (aux : CipherReport) : State :=
  let v := s.slot (keySlot d)
  match SMap.find? s.cry.recs (keySlot d) with
  | none => cmdDone s r idx 0 1
  | some a =>
    if !a.exportable then cmdDone s r idx 0 5
    else if v.st != .ready then cmdDone (useSlot s (keySlot d) 0 {}).2 r idx 0 1
    else if !v.attr.exportable then cmdDone s r idx 0 5
    else match auxKey s d aux with
      | (.inl c, s) => cmdDone s r idx 0 c
      | (.inr kek, s) =>
        let s := keyWork s lanes core
        if lanes = 2 then cmdDone s r idx 0 8
        else cmdDone s r idx 0 0 (data := v.attr.header ++ leWords (v.attr.wrapUnder kek v.key) 0 12)

/-- EXPORT (R403, R407). -/
def execKeyExport (r : Fin 2) (idx : BitVec 16) (desc _data : List Word) (lanes : Fin 3) (work : KeyUse) (s : State) : Ans :=
  onDie s (fun s => onCmd s r idx (keyDesc desc 3) (fun s => keyExport s r idx.toNat desc lanes work.core work.aux))

/-- ERASE of R407. -/
def keyErase (s : State) (r idx : Nat) (d : List Word) : State :=
  if (SMap.find? s.cry.recs (keySlot d)).isNone then cmdDone s r idx 0 1
  else storeAsk s r idx (keySlot d) none [] (keyBeat d)

/-- ERASE (R407). -/
def execKeyErase (r : Fin 2) (idx : BitVec 16) (desc _data : List Word) (s : State) : Ans :=
  onDie s (fun s => onCmd s r idx (keyDesc desc 4) (fun s => keyErase s r idx.toNat desc))

/-- LOAD of R407: the command completes with its load. -/
def keyLoad (s : State) (r idx : Nat) (d : List Word) : State :=
  let k := keySlot d
  match SMap.find? s.cry.recs k with
  | none => cmdDone s r idx 0 1
  | some a => requestLoad (s.setSlot k { s.slot k with st := .loading, attr := a }) k

/-- LOAD (R407). -/
def execKeyLoad (r : Fin 2) (idx : BitVec 16) (desc _data : List Word) (s : State) : Ans :=
  onDie s (fun s => onCmd s r idx (keyDesc desc 5) (fun s => keyLoad s r idx.toNat desc))

/-- EVICT of R407: the slot's copies are zero and it is STORED; a load that runs or waits goes on. -/
def keyEvict (s : State) (r idx : Nat) (d : List Word) : State :=
  let k := keySlot d
  match SMap.find? s.cry.recs k with
  | none => cmdDone s r idx 0 1
  | some a => cmdDone (s.setSlot k ((s.slot k).emptied .stored a)) r idx 0 0

/-- EVICT (R407). -/
def execKeyEvict (r : Fin 2) (idx : BitVec 16) (desc _data : List Word) (s : State) : Ans :=
  onDie s (fun s => onCmd s r idx (keyDesc desc 6) (fun s => keyEvict s r idx.toNat desc))

/-- INFO of R407: the record's header and its key check value. -/
def keyInfo (s : State) (r idx : Nat) (d data : List Word) (lanes : Fin 3) (core : Fin 4) : State :=
  match SMap.find? s.cry.recs (keySlot d) with
  | none => cmdDone s r idx 0 1
  | some a =>
    let s := keyWork s lanes core
    if lanes = 2 then cmdDone s r idx 0 8
    else match a.clear with
      | none => cmdDone s r idx 0 3
      | some key => cmdDone s r idx 0 0 (data := a.header ++ [slotChk key >>> 8] ++ (data ++ List.replicate 16 0).drop 5 |>.take 16)

/-- INFO (R403, R407). -/
def execKeyInfo (r : Fin 2) (idx : BitVec 16) (desc data : List Word) (lanes : Fin 3) (core : Fin 4) (s : State) : Ans :=
  onDie s (fun s => onCmd s r idx (keyDesc desc 7) (fun s => keyInfo s r idx.toNat desc data lanes core))

/-- SA_WRITE (R393): a write to a SecY's SC or SA register, in the accesses of Access. -/
def cryReg (r : Reg) : Bool :=
  match r with
  | .CRY_TXSA_CFG => true | .CRY_TXSA_NEXT_PN_LO => true | .CRY_TXSA_NEXT_PN_HI => true | .CRY_TXSA_SSCI => true
  | .CRY_TXSA_SALT0 => true | .CRY_TXSA_SALT1 => true | .CRY_TXSA_SALT2 => true | .CRY_TXSA_THRESH_LO => true
  | .CRY_TXSA_THRESH_HI => true | .CRY_RXSA_CFG => true | .CRY_RXSA_NEXT_PN_LO => true | .CRY_RXSA_NEXT_PN_HI => true
  | .CRY_RXSA_SSCI => true | .CRY_RXSA_SALT0 => true | .CRY_RXSA_SALT1 => true | .CRY_RXSA_SALT2 => true
  | _ => false

end Sys2Proof.Machine
end

