-- ==== Sys2Proof/Machine/Update.lean ====
section
/-! DEFINITION. Firmware images: the flash areas, verification, staging and its lock, ACTIVATE, the host counters and the UDS
requests (R460 to R475). -/

namespace Sys2Proof.Machine

/-! ### Image areas (R460, R461) -/

/-- Byte `o` of a block. -/
def FBlock.rd (b : FBlock) (o : Nat) : Byte :=
  match SMap.find? b.data o with
  | some v => v
  | none => match b.shipped with
    | some k => Config.shippedByte k o
    | none => 0xFF

/-- Block `b` of MAIN; an unlisted block holds the release image as shipped (R551). -/
def Update.mainBlock (u : Update) (b : Nat) : FBlock := SMap.get { shipped := some b } u.main b
/-- Block `b` of PRIOR. -/
def Update.priorBlock (u : Update) (b : Nat) : FBlock := SMap.get {} u.prior b
/-- Block `b` of staging. -/
def Update.stageBlock (u : Update) (b : Nat) : FBlock := SMap.get {} u.stage b

/-- An image area as its bytes. -/
abbrev Area := Nat → Byte

/-- The bytes of MAIN. -/
def Update.mainArea (u : Update) : Area := fun a => (u.mainBlock (a / 65536)).rd (a % 65536)
/-- The bytes of PRIOR. -/
def Update.priorArea (u : Update) : Area := fun a => (u.priorBlock (a / 65536)).rd (a % 65536)
/-- The bytes of staging. -/
def Update.stageArea (u : Update) : Area := fun a => (u.stageBlock (a / 65536)).rd (a % 65536)

/-- `n` bytes of an area from `i`. -/
def areaBytes (f : Area) (i n : Nat) : List Byte := (List.range n).map (fun k => f (i + k))

/-- The little-endian word of an area at `i`. -/
def areaWord (f : Area) (i : Nat) : Word := leWord (areaBytes f i 4) 0

/-- The 256 blocks of an area. -/
def areaMap (f : Nat → FBlock) (dflt : Nat → FBlock) : SMap FBlock :=
  (List.range 256).filterMap (fun b => if f b = dflt b then none else some (b, f b))

/-- R508: an erase or a program operation in an area raises its write counter. -/
def Update.wrote (u : Update) (area : Nat) : Update := { u with wcnt := SMap.upd 0 u.wcnt area (· + 1) }

/-- MAIN copied to PRIOR. -/
def Update.mainToPrior (u : Update) : Update := { u with prior := areaMap u.mainBlock (fun _ => {}) }.wrote 1

/-- Staging copied to MAIN. -/
def Update.stageToMain (u : Update) : Update := { u with main := areaMap u.stageBlock (fun b => { shipped := some b }) }.wrote 0

/-- An area whose content after a failed copy the manual does not give; `n` names the occasion (log entry 1). -/
def lostBlock (n b : Nat) : FBlock := { shipped := some (256 + 256 * n + b) }

/-- VERSION of an image (R461). -/
def imgVersion (f : Area) : Word := areaWord f 0x08
/-- SVN of an image. -/
def imgSvn (f : Area) : Word := areaWord f 0x0C
/-- BODY_HASH of an image. -/
def imgHash (f : Area) : List Byte := areaBytes f 0x20 48
/-- STATE_FMT of an image. -/
def imgStateFmt (f : Area) : Nat := fld (areaWord f 0x18) 0 16
/-- SET_FMT of an image. -/
def imgSetFmt (f : Area) : Nat := fld (areaWord f 0x14) 0 16
/-- MIN_SET_FMT of an image. -/
def imgMinFmt (f : Area) : Nat := fld (areaWord f 0x14) 16 16

/-- The header bytes that R461 does not list. -/
def imgZeros : List Nat :=
  [0x06, 0x07, 0x13, 0x1B, 0x1C, 0x1D, 0x1E, 0x1F] ++ (List.range 0x30).map (0x50 + ·) ++ (List.range 0x20).map (0xE0 + ·)

/-- R462: the code of the first check that fails, in the rule's order; 0 when the image verifies. With `trusted` the body hash is
taken as met (R508). -/
def imgVerify (part : Part) (ctr0 : Word) (trusted : Bool) (f : Area) : Nat :=
  let h := areaBytes f 0 256
  let len := fld (leWord h 0x10) 0 24
  let key := fld (leWord h 0x18) 16 2
  if leWord h 0 ≠ 0x4D494D41 ∨ byteAt h 4 ≠ 1 ∨ !imgZeros.all (fun i => byteAt h i == 0) ∨ len = 0 ∨ 16776960 < len then 3
  else if !bit (leWord h 4) (if part = .am7240 then 8 else 9) then 6
  else if !trusted && sha384 (areaBytes f 256 len) != slice h 0x20 48 then 3
  else if !ecdsaOk (Config.signKey key) (sha384 (h.take 0x80)) (slice h 0x80 96) || Config.keyRevoked key then 4
  else if leWord h 0x0C < ctr0 then 5
  else 0

/-- R462 of an image in the device's own flash. -/
def State.verify (s : State) (f : Area) : Nat := imgVerify s.part (s.reg .KEEP_CTR 0) false f

/-! ### Staging (R466 to R469) -/

/-- STAGE_STATE of the keep domain. -/
def keepStage (s : State) (b : Bool) : State := s.setRbit .KEEP_BOOT 1 b

/-- COPY_PHASE and COPY_BLOCK of the keep domain. -/
def keepCopy (s : State) (phase block : Nat) : State := (s.setRfld .KEEP_BOOT 2 2 phase).setRfld .KEEP_BOOT 8 8 block

/-- The owner's operation restarts the 30 s of R469. -/
def stageTouch (s : State) : State := { s with upd := { s.upd with lastOp := s.time.cnt } }

/-- R466: OPEN from source `owner` (1 = host, 2 = DoIP), with its code. -/
def stageOpen (s : State) (owner tester : Nat) : Nat × State :=
  let u := s.upd
  if (u.owner != 0 && (u.owner != owner || u.tester != tester)) || u.act != 0 || u.running == 2 then (1, s)
  else
    let gen := (u.gen + 1) % 256
    let u := { u with owner, tester, gen, stageState := 1, touched := [], blocks := 0,
                      testerGen := if owner = 2 then gen else u.testerGen }
    (0, stageTouch (keepStage { s with upd := u } false))

/-- R467: is the source the owner of staging. -/
def State.ownsStage (s : State) (owner tester : Nat) : Bool := s.upd.owner == owner && s.upd.tester == tester

/-- R467: bytes are programmed from offset `off`; a block touched for the first time since the OPEN is erased before. -/
def stageProgram (u : Update) (off : Nat) (l : List Byte) : Update :=
  let b := off / 65536
  let blk := if u.touched.contains b then u.stageBlock b else {}
  let data := (l.zipIdx 0).foldl (fun m e => SMap.put m (off % 65536 + e.2) e.1) blk.data
  { u with stage := SMap.set {} u.stage b { blk with data },
           touched := if u.touched.contains b then u.touched else b :: u.touched }.wrote 2

/-- R468: COMMIT of the owner, with its code. -/
def stageCommit (s : State) : Nat × State :=
  let code := s.verify s.upd.stageArea
  let s := { s with upd := { s.upd with owner := 0, stageState := if code = 0 then 2 else 3 } }
  (code, if code = 0 then (keepStage s true).setReg .KEEP_STAGE_TAG (areaWord s.upd.stageArea 0x20) else s)

/-- R468, R469: the lock is released and STATE is EMPTY. -/
def stageDrop (s : State) : State := { s with upd := { s.upd with owner := 0, stageState := 0 } }

/-- The slabs that ARG names, if each was read and is owned by the device (R371, R492). -/
def State.argSlabs (s : State) (desc : List Word) (slabs : List SlabRead) : Option (List SlabRead) :=
  let first := wfld desc 2 0 16
  let n := wfld desc 2 16 6
  let l := (List.range n).filterMap (fun i => slabs.find? (fun x => x.slab == first + i && s.slabOk x.slab x.flag))
  if l.length = n then some l else none

/-- A command whose slab the device may not use ends with a code that the manual does not state (log entry 1). -/
def cmdFree (s : State) (r idx : Nat) : State := let x := s.fresh; cmdDone x.2 r idx 0 (x.1.toNat % 256)

/-- UPD_OPEN (R466). -/
def execUpdOpen (r : Fin 2) (idx : BitVec 16) (desc _data : List Word) (s : State) : Ans :=
  onDie s (fun s => onCmd s r idx (cmdDesc desc 1 1) (fun s =>
    let x := stageOpen s 1 0
    cmdDone x.2 r idx.toNat 0 x.1 (index := x.2.upd.gen)))

/-- UPD_WRITE (R467, R492). -/
def execUpdWrite (r : Fin 2) (idx : BitVec 16) (desc : List Word) (slabs : List SlabRead) (s : State) : Ans :=
  onDie s (fun s => onCmd s r idx (cmdDesc desc 1 2) (fun s =>
    let n := wfld desc 2 16 6
    let off := (wd desc 1).toNat * 4096
    if !s.ownsStage 1 0 then cmdDone s r idx.toNat 0 2
    else
      let s := slabsSeen (stageTouch s) slabs
      if n = 0 ∨ 16 < n ∨ 16777216 < off + n * 4096 then cmdDone s r idx.toNat 0 19
      else match s.argSlabs desc slabs with
        | none => cmdFree s r idx.toNat
        | some l =>
          let u := (l.zipIdx 0).foldl (fun u e => stageProgram u (off + e.2 * 4096) (slice e.1.data 0 4096)) s.upd
          cmdDone (slabsEnd { s with upd := u } l 2) r idx.toNat 0 0))

/-- UPD_COMMIT (R468). -/
def execUpdCommit (r : Fin 2) (idx : BitVec 16) (desc _data : List Word) (s : State) : Ans :=
  onDie s (fun s => onCmd s r idx (cmdDesc desc 1 3) (fun s =>
    if !s.ownsStage 1 0 then cmdDone s r idx.toNat 0 2
    else let x := stageCommit s; cmdDone x.2 r idx.toNat 0 x.1))

/-- UPD_ABORT (R468). -/
def execUpdAbort (r : Fin 2) (idx : BitVec 16) (desc _data : List Word) (s : State) : Ans :=
  onDie s (fun s => onCmd s r idx (cmdDesc desc 1 4) (fun s =>
    if !s.ownsStage 1 0 then cmdDone s r idx.toNat 0 2 else cmdDone (stageDrop s) r idx.toNat 0 0))

/-- STAGING_LOCK_EXPIRY (R469): 30 s without a staging operation of the owner. -/
def execStagingLockExpiry (s : State) : Ans :=
  onDie s (fun s =>
    if s.upd.owner != 0 && decide (9375000000 ≤ (s.time.cnt - s.upd.lastOp).toNat) then
      (stageDrop s).flag .UPD_EVENT .UPD_IRQ_EN 2
    else s)

/-! ### ACTIVATE (R471 to R474) -/

/-- R471: the code of the first check that fails. -/
def State.actJudge (s : State) (gen : Nat) : Nat :=
  let u := s.upd
  if u.stageState ≠ 2 then 8
  else if gen ≠ u.gen then 7
  else if imgSvn u.stageArea < s.reg .KEEP_CTR 0 then 5
  else if u.act ≠ 0 then 1
  else if s.twin.safe || s.anyEligible.isNone then 9
  else 0

/-- R471 step 4, R473: with another STATE_FMT the ACTIVATE ends; else the standby writes claim 0x00 and is reloaded. -/
def actReload (s : State) (f : Area) : State :=
  if imgStateFmt f ≠ s.upd.runState then actEnd s 10
  else match s.actId with
    | none => actPlaneFail s
    | some b =>
      if s.twin.safe || (s.plane (!b)).mode == .failed then actPlaneFail s
      else
        let s := standbyLost s (!b)
        let s := s.setPlane (!b) ((s.plane (!b)).fall .selftest)
        reaccept { s with upd := { s.upd with act := 4 } }

/-- R471, R474: an accepted ACTIVATE. -/
def actAccept (s : State) (trial : Bool) : State :=
  let s := (keepStage s (!trial)).setRfld .UPD_ACT_STATUS 16 8 0
  let s := { s with upd := { s.upd with trial, copyBlock := 0 } }
  if trial then actReload s s.upd.stageArea
  else keepCopy { s with upd := { s.upd with act := 2 } } 1 0

/-- ACTIVATE and ACTIVATE_TRIAL as command-ring commands. -/
def actCmd (r : Fin 2) (idx : BitVec 16) (desc : List Word) (trial : Bool) (s : State) : State :=
  onCmd s r idx (cmdDesc desc 1 5) (fun s =>
    let c := s.actJudge (wfld desc 1 0 8)
    cmdDone (if c = 0 then actAccept s trial else s) r idx.toNat 0 c)

/-- ACTIVATE (R471). -/
def execActivate (r : Fin 2) (idx : BitVec 16) (desc _data : List Word) (s : State) : Ans := onDie s (actCmd r idx desc false)

/-- ACTIVATE_TRIAL (R474). -/
def execActivateTrial (r : Fin 2) (idx : BitVec 16) (desc _data : List Word) (s : State) : Ans := onDie s (actCmd r idx desc true)

/-- R473 FLASH_FAIL: a block fails its read-back twice; in which copy the outside does not say (log entry 1). -/
def actFlashFail (s : State) : State :=
  let x := s.fresh
  let n := s.free
  let u := s.upd
  let inPrior := bit x.1 0
  let s := if inPrior then { x.2 with upd := { u with prior := areaMap (lostBlock n) (fun _ => {}) }.wrote 1 }
    else { x.2 with upd := { u.mainToPrior with main := areaMap (lostBlock n) (fun b => { shipped := some b }) }.wrote 0 }
  actEnd ((keepCopy s (if inPrior then 1 else 2) (fld x.1 8 8)).setRbit .KEEP_BOOT 0 true) 17

/-- ACTIVATE_COPY_DONE (R471 steps 2 to 4): the image copy ends, MAIN is verified and the standby is reloaded. -/
def execActivateCopyDone (ok : Bool) (s : State) : Ans :=
  onDie s (fun s =>
    if s.upd.act ≠ 2 then s
    else if !ok then actFlashFail s
    else
      let s := keepCopy { s with upd := s.upd.mainToPrior.stageToMain } 0 0
      let c := s.verify s.upd.mainArea
      if c ≠ 0 then actEnd (s.setRbit .KEEP_BOOT 0 true) c
      else actReload s s.upd.mainArea)

/-- R471 steps 5 and 6, R319: the Kelpie images of the new body swap in where the new microcode becomes ACTIVE; `before` is the
STEP that the boundary found. -/
def actSwaps (s : State) (before : Nat) : State :=
  if 4 ≤ before ∧ before ≤ 6 ∧ 7 ≤ s.upd.act then
    let hash := imgHash (if s.upd.trial then s.upd.stageArea else s.upd.mainArea)
    ([0, 1, 2, 3, 4, 5, 6, 12, 13]).foldl (fun s e => engSwap s e (shippedImage hash e)) s
  else s

/-- The header facts of the image that Shepherd starts: 0 = MAIN, 1 = PRIOR, 2 = staging. -/
def runImage (s : State) (run kind : Nat) : State :=
  let u := s.upd
  let f := if run = 0 then u.mainArea else if run = 1 then u.priorArea else u.stageArea
  let s := { s with upd := { u with running := run, startKind := kind, runState := imgStateFmt f, runSet := imgSetFmt f,
                                    runMin := imgMinFmt f } }
  ((s.setReg .UPD_FW_VERSION (imgVersion f)).setReg .UPD_FW_SVN (imgSvn f)).setRfld .KEEP_BOOT 16 3 kind

/-! ### Host counters and UDS (R464, R470) -/

/-- INC_CTR (R464, R492). -/
def execIncCtr (r : Fin 2) (idx : BitVec 16) (desc _data : List Word) (s : State) : Ans :=
  onDie s (fun s => onCmd s r idx (cmdDesc desc 1 6) (fun s =>
    let n := (wd desc 1).toNat
    if n < 16 ∨ 29 < n ∨ s.reg .KEEP_CTR n = 0xFFFFFFFF then cmdDone s r idx.toNat 0 19
    else cmdDone (ctrInc s n) r idx.toNat 0 0))

/-- Shepherd serves management protocols: it runs, and the device forwards (R255, R472, R509). -/
def State.shepUp (s : State) : Bool := !s.clk.shepDown && !s.twin.safe && s.clk.phase == 7

/-- The UDS answer to a result code; one that the manual does not state is a free value (log entry 1). -/
def udsCode (s : State) (code : Nat) : Nat × State :=
  if code = 0 then (0, s)
  else if code = 1 then (0x22, s)
  else if code = 2 then (0x24, s)
  else if 3 ≤ code ∧ code ≤ 6 then (0x72, s)
  else let x := s.fresh; (x.1.toNat % 256, x.2)

/-- A UDS request in the programming session is answered with the outcome of its operation. -/
def uds (s : State) (tester : BitVec 16) (f : State → Nat × State) : State :=
  if !s.shepUp then s
  else
    let x := f s
    let y := udsCode x.2 x.1
    y.2.put (.uds tester.toNat y.1)

/-- REQUEST_DOWNLOAD (R470): OPEN, for address 0 and at most 16 MiB. -/
def execRequestDownload (tester : BitVec 16) (addr size : BitVec 32) (s : State) : Ans :=
  onDie s (fun s => uds s tester (fun s =>
    if addr ≠ 0 ∨ 16777216 < size.toNat then (19, s) else stageOpen s 2 tester.toNat))

/-- TRANSFER_DATA (R470): WRITE of the next block, at most 4,096 bytes. -/
def execTransferData (tester : BitVec 16) (block : Byte) (data : List Byte) (s : State) : Ans :=
  onDie s (fun s => uds s tester (fun s =>
    if !s.ownsStage 2 tester.toNat then (2, s)
    else
      let s := stageTouch s
      let u := s.upd
      if block.toNat ≠ (u.blocks + 1) % 256 ∨ data = [] ∨ 4096 < data.length ∨ 4096 ≤ u.blocks then (19, s)
      else (0, { s with upd := { stageProgram u (u.blocks * 4096) data with blocks := u.blocks + 1 } })))

/-- REQUEST_TRANSFER_EXIT (R470): COMMIT. -/
def execRequestTransferExit (tester : BitVec 16) (s : State) : Ans :=
  onDie s (fun s => uds s tester (fun s => if !s.ownsStage 2 tester.toNat then (2, s) else stageCommit s))

/-- ROUTINE_CONTROL_ACTIVATE (R470): ACTIVATE with the GEN of the tester's OPEN. -/
def execRoutineControlActivate (tester : BitVec 16) (s : State) : Ans :=
  onDie s (fun s => uds s tester (fun s =>
    let c := s.actJudge s.upd.testerGen
    (c, if c = 0 then actAccept s false else s)))

/-- ROUTINE_CONTROL_ABORT (R470): ABORT. -/
def execRoutineControlAbort (tester : BitVec 16) (s : State) : Ans :=
  onDie s (fun s => uds s tester (fun s => if !s.ownsStage 2 tester.toNat then (2, s) else (0, stageDrop s)))

end Sys2Proof.Machine
end

