-- ==== Sys2Proof/Machine/Lldp.lean ====
section
/-! DEFINITION. The fingerprint TLV and the peers that announce it (R485, R486). -/

namespace Sys2Proof.Machine

/-- R485: the fingerprint TLV of the device, in network byte order. -/
def State.fpTlv (s : State) : List Byte :=
  let pend := match s.upd.cfg with | some q => if q.checked then some q else none | none => none
  let b := match pend with | some q => if q.atBeat then q.beat.toNat else 0 | none => 0
  let e := match pend with | some q => q.epoch.toNat | none => 0
  beBytes (127 * 512 + 32) 2 ++ beBytes (s.rfld .UPD_LLDP_OUI 0 24) 3 ++ [1] ++ beBytes (s.reg .UPD_CFG_EPOCH).toNat 4 ++
    beBytes s.fpActive.toNat 8 ++ beBytes b 6 ++ beBytes e 4 ++ beBytes (if s.part = .am7240 then 0x7240 else 0x7220) 2 ++
    beBytes (s.reg .UPD_FW_VERSION).toNat 4

/-- An LLDP TLV of a type and its value. -/
def lldpTlv (type : Nat) (v : List Byte) : List Byte := beBytes (type * 512 + v.length) 2 ++ v

/-- R50, R485: the LLDPDU for port `n`: chassis, port and time to live, the capabilities without preemption, and the fingerprint TLV while
FP_TLV_EN = 1. PRESUMED (log entry 74) but for the fingerprint: the form that IEEE 802.1AB and 802.3 give these TLVs; the manual states no
time to live. -/
def State.lldpdu (s : State) (n : Nat) (ttl : Word) : List Byte :=
  lldpTlv 1 (4 :: s.shepMac) ++ lldpTlv 2 [7, BitVec.ofNat 8 n] ++ lldpTlv 3 (beBytes (ttl.toNat % 65536) 2) ++
    lldpTlv 127 ([0x00, 0x12, 0x0F, 7] ++ beBytes 0 2) ++ (if s.rbit .UPD_CTRL 1 then s.fpTlv else []) ++ lldpTlv 0 []

/-- LLDPDU_SEND (R50, R485): each second, and within 10 ms of a commit, Shepherd sends an LLDPDU to each port of UPD_FP_PORTS, as frames
that enter P23. In the safe state the transmitters are idle (R255). -/
def execLldpduSend (s : State) : Ans :=
  onDie s (fun s =>
    if !s.shepUp || s.twin.safe then s
    else
      let x := s.fresh
      shepSend x.2 (((maskList (s.rfld .UPD_FP_PORTS 0 24) 22).filter (fun n => s.hasPort n && s.up n)).map (fun n =>
        s.llFrame n 0x88CC false (s.lldpdu n x.1))))

/-- R485: is the received TLV a fingerprint TLV. -/
def State.tlvOk (s : State) (t : List Byte) : Bool :=
  t.length == 34 && beNat t 0 2 == 127 * 512 + 32 && beNat t 2 3 == s.rfld .UPD_LLDP_OUI 0 24 && byteAt t 5 == 1

/-- MAC of peer entry `j`, when valid. -/
def State.peerMac (s : State) (j : Nat) : Option Nat :=
  if s.rbit .UPD_PEER_MAC_HI 31 j then some ((s.reg .UPD_PEER_MAC_LO j).toNat + 2 ^ 32 * s.rfld .UPD_PEER_MAC_HI 0 16 j) else none

/-- MAC of expected peer `j`, when valid. -/
def State.expMac (s : State) (j : Nat) : Option Nat :=
  if s.rbit .UPD_PEER_EXP_MAC_HI 31 j then some ((s.reg .UPD_PEER_EXP_MAC_LO j).toNat + 2 ^ 32 * s.rfld .UPD_PEER_EXP_MAC_HI 0 16 j)
  else none

/-- R486: the checks of an expected peer `j` on a TLV of peer entry `k`. -/
def peerCheck (k epoch fp pend : Nat) (s : State) (j : Nat) : State :=
  let u := s.upd
  let s := { s with upd := { u with exp := SMap.put u.exp j { seen := s.time.cnt, lost := false } } }
  let want := (s.reg .UPD_PEER_EXP_EPOCH j).toNat
  let wfp := s.reg64 .UPD_PEER_EXP_FP_LO .UPD_PEER_EXP_FP_HI j
  let p := SMap.get ({} : Peer) s.upd.peer k
  let bad := decide (epoch = want ∧ fp ≠ wfp)
  let miss := if epoch ≠ want ∧ pend ≠ want then min 3 (p.mism + 1) else 0
  let v := BitVec.ofNat 64 fp
  let s' := { s with upd := { s.upd with peer := SMap.put s.upd.peer k { p with mism := miss, rep := if bad then some v else none } } }
  let s' := if bad && p.rep != some v then
      (s'.flag .UPD_EVENT .UPD_IRQ_EN 8).emitIf (s.rbit .UPD_CTRL 0) 0xD4 k 0
        [s.reg .UPD_PEER_EXP_FP_LO j, s.reg .UPD_PEER_EXP_FP_HI j, BitVec.ofNat 32 fp, BitVec.ofNat 32 (fp / 2 ^ 32)]
    else s'
  if miss = 3 then s'.flag .UPD_EVENT .UPD_IRQ_EN 9 else s'

/-- LLDP_TLV_RECEIVE (R486). -/
def execLldpTlvReceive (n : Fin 22) (mac : BitVec 48) (tlv : List Byte) (ttl : BitVec 16) (s : State) : Ans :=
  onDie s (fun s =>
    if !s.shepUp || !s.tlvOk tlv then s
    else
      let m := mac.toNat
      let place := match (List.range 32).find? (fun j => s.peerMac j == some m) with
        | some j => some j
        | none => (List.range 32).find? (fun j => (s.peerMac j).isNone)
      match place with
      | none => s.flag .UPD_EVENT .UPD_IRQ_EN 11
      | some k =>
        let old : Peer := if s.peerMac k = some m then SMap.get ({} : Peer) s.upd.peer k else {}
        let s := s.setReg .UPD_PEER_MAC_LO (BitVec.ofNat 32 m) k
        let s := s.setReg .UPD_PEER_MAC_HI (BitVec.ofNat 32 (m / 2 ^ 32 + n.val * 2 ^ 16 + 2 ^ 31)) k
        let s := s.setReg .UPD_PEER_EPOCH (BitVec.ofNat 32 (beNat tlv 6 4)) k
        let s := s.setReg64 .UPD_PEER_FP_LO .UPD_PEER_FP_HI (beNat tlv 10 8) k
        let s := { s with upd := { s.upd with peer := SMap.put s.upd.peer k { old with seen := s.time.cnt, ttl := ttl.toNat } } }
        ((List.range 32).filter (fun j => s.expMac j == some m)).foldl (peerCheck k (beNat tlv 6 4) (beNat tlv 10 8) (beNat tlv 24 4)) s)

/-- PEER_LOST (R486): no TLV from an expected peer for 4 s. -/
def execPeerLost (j : Fin 32) (s : State) : Ans :=
  onDie s (fun s =>
    let e := SMap.get ({} : ExpPeer) s.upd.exp j
    if (s.expMac j).isSome && !e.lost && decide (1250000000 ≤ (s.time.cnt - e.seen).toNat) then
      { s with upd := { s.upd with exp := SMap.put s.upd.exp j { e with lost := true } } }.flag .UPD_EVENT .UPD_IRQ_EN 10
    else s)

/-- PEER_TTL_EXPIRY (R486): an entry whose LLDPDU's time-to-live has ended is removed. -/
def execPeerTtlExpiry (j : Fin 32) (s : State) : Ans :=
  onDie s (fun s =>
    let p := SMap.get ({} : Peer) s.upd.peer j
    if (s.peerMac j).isSome && decide (p.ttl * 312500000 ≤ (s.time.cnt - p.seen).toNat) then
      let s := { s with upd := { s.upd with peer := SMap.erase s.upd.peer j } }
      [Reg.UPD_PEER_MAC_LO, .UPD_PEER_MAC_HI, .UPD_PEER_EPOCH, .UPD_PEER_FP_LO, .UPD_PEER_FP_HI].foldl (fun s r => s.setReg r 0 j) s
    else s)

end Sys2Proof.Machine
end

