-- ==== Sys2Proof/Machine/ShippedGraph.lean ====
section
/-! DEFINITION. The parse graph that Shepherd loads at start-up (R69). -/

namespace Sys2Proof.Machine

/-- The length rule of a shipped node (R61): BASE_LEN, LEN_OFF, LEN_RSH, LEN_MASK, LEN_LSH and MIN_LEN; a mask of 0 is a fixed length. -/
structure ShipLen where
  base : Nat
  off : Nat := 0
  rsh : Nat := 0
  mask : Nat := 0
  lsh : Nat := 0
  least : Nat := 0
deriving DecidableEq, Repr

/-- A node of the shipped graph: length rule, SEL_OFF, SEL_WIDE, DEFAULT_NEXT, PRESENT bit, extracts (source byte, width, key-vector
byte). -/
structure ShipNode where
  len : ShipLen
  sel : Nat := 0
  wide : Bool := false
  next : Nat := 0x40
  pres : Option Nat := none
  ext : List (Nat × Nat × Nat) := []
deriving DecidableEq, Repr

/-- R69: nodes 0 to 24 in order. -/
def shipNodes : List ShipNode :=
  [ { len := { base := 14 }, sel := 12, wide := true, ext := [(0, 6, 4), (6, 6, 10), (12, 2, 20)] },
    { len := { base := 4 }, sel := 2, wide := true, pres := some 0, ext := [(0, 2, 18), (2, 2, 20)] },
    { len := { base := 4 }, sel := 2, wide := true, pres := some 1, ext := [(0, 2, 16), (2, 2, 20)] },
    { len := { base := 6 }, sel := 4, wide := true, pres := some 2, ext := [(2, 2, 22), (4, 2, 20)] },
    { len := { base := 6, off := 0, rsh := 5, mask := 0x01, lsh := 3 }, pres := some 3 },
    { len := { base := 0 }, sel := 6, wide := true, next := 7, pres := some 4 },
    { len := { base := 0, mask := 0x0F, lsh := 2, least := 20 }, sel := 9, ext := [(9, 1, 56), (1, 1, 57), (12, 4, 36), (16, 4, 52)] },
    { len := { base := 0, mask := 0x0F, lsh := 2, least := 20 }, pres := some 5, ext := [(9, 1, 56), (12, 4, 36), (16, 4, 52)] },
    { len := { base := 40 }, sel := 6, pres := some 6, ext := [(6, 1, 56), (8, 16, 24), (24, 16, 40)] },
    { len := { base := 8, off := 1, mask := 0xFF, lsh := 3 }, sel := 0, ext := [(0, 1, 56)] },
    { len := { base := 8 }, sel := 2, wide := true, pres := some 7, ext := [(0, 2, 58), (2, 2, 60)] },
    { len := { base := 0, off := 12, rsh := 4, mask := 0x0F, lsh := 2, least := 20 }, pres := some 8,
      ext := [(0, 2, 58), (2, 2, 60), (13, 1, 62)] },
    { len := { base := 0 }, sel := 0, pres := some 9, ext := [(0, 1, 32), (2, 1, 33), (4, 8, 24)] } ] ++
  [ { len := { base := 24 }, pres := some 10, ext := [(20, 2, 36), (22, 1, 34)] },
    { len := { base := 24 }, pres := some 10, ext := [(20, 2, 36), (22, 1, 34)] },
    { len := { base := 24 }, next := 17 },
    { len := { base := 12 }, next := 17 },
    { len := { base := 0 }, sel := 0, pres := some 11 },
    { len := { base := 16 }, ext := [(2, 1, 41), (3, 1, 40), (12, 4, 36)] },
    { len := { base := 8 }, ext := [(2, 1, 41), (3, 1, 40), (4, 4, 36)] },
    { len := { base := 12 }, ext := [(2, 1, 40), (3, 1, 39)] },
    { len := { base := 34 }, sel := 0, pres := some 12, ext := [(0, 1, 63)] },
    { len := { base := 0 }, pres := some 13 },
    { len := { base := 0 }, pres := some 14 },
    { len := { base := 16 }, pres := some 15, ext := [(0, 4, 24)] } ]

/-- R69: the Ethertype map: value and next node. -/
def ethMap : List (Nat × Nat) :=
  [(0x8100, 1), (0x88A8, 2), (0xF1C1, 3), (0x88E5, 4), (0x0800, 5), (0x86DD, 8), (0x22F0, 12), (0x88F7, 21), (0x88CC, 23), (0x88B5, 24)]

/-- R69: the IPv6 next-header map. -/
def ip6Map : List (Nat × Nat) := [(0, 9), (43, 9), (60, 9), (17, 10), (6, 11)]

/-- R69: the transitions: node, next code, VALUE, MASK. Their order in the table is the model's (log entry 20). -/
def shipTrans : List (Nat × Nat × Nat × Nat) :=
  let w := fun (n : Nat) (l : List (Nat × Nat)) => l.map (fun e => (n, e.2, e.1, (0xFFFF : Nat)))
  let b := fun (n m : Nat) (l : List (Nat × Nat)) => l.map (fun e => (n, e.2, e.1, m))
  w 0 ethMap ++ w 1 (ethMap.filter (·.1 != 0x88A8)) ++ w 2 ethMap ++ w 3 (ethMap.filter (·.1 != 0xF1C1)) ++
    [(5, 6, 0, 0x1FFF)] ++ b 6 0xFF [(17, 10), (6, 11)] ++ b 8 0xFF ip6Map ++ b 9 0xFF ip6Map ++ w 10 [(319, 21), (320, 21)] ++
    b 12 0xFF [(0x03, 13), (0x07, 14), (0x05, 15), (0x82, 16)] ++ b 17 0xFE [(0x02, 18), (0x04, 19), (0x06, 20)] ++
    b 21 0x0F [(0, 22), (1, 22), (2, 22), (3, 22)]

/-- PAR_NODE_LEN of a shipped node. -/
def ShipNode.lenWord (n : ShipNode) : Word :=
  BitVec.ofNat 32 (n.len.base + n.len.off * 2 ^ 8 + (if n.len.mask = 0 then 0 else 2 ^ 15) + n.len.rsh * 2 ^ 16 + n.len.lsh * 2 ^ 19 +
    n.len.mask * 2 ^ 22)

/-- PAR_NODE_SEL of a shipped node. -/
def ShipNode.selWord (n : ShipNode) : Word :=
  BitVec.ofNat 32 (n.sel + (if n.wide then 2 ^ 7 else 0) + n.next * 2 ^ 8 +
    (match n.pres with | some b => 2 ^ 15 + b * 2 ^ 16 | none => 0) + n.len.least * 2 ^ 24)

/-- PAR_NODE_EXT of an extract. -/
def extWord (e : Nat × Nat × Nat) : Word := BitVec.ofNat 32 (e.1 + 2 ^ 7 + (e.2.1 - 1) * 2 ^ 8 + e.2.2 * 2 ^ 18)

/-- R69: the shipped graph is loaded: nodes 25 to 63 and the rest of the transition table are all zeros, every PAR_PORT_START is 0.
PAR_PIC_MARK is loaded 0x10 (R73's table of registers). -/
def loadGraph (s : State) : State :=
  let s := s.setReg .PAR_PIC_MARK 0x10
  let s := (List.range 24).foldl (fun s p => s.setReg .PAR_PORT_START 0 p) s
  let s := (List.range 64).foldl (fun s i =>
    match shipNodes[i]? with
    | some n =>
      (List.range 4).foldl (fun s e => s.setReg .PAR_NODE_EXT ((n.ext[e]?.map extWord).getD 0) i e)
        ((s.setReg .PAR_NODE_LEN n.lenWord i).setReg .PAR_NODE_SEL n.selWord i)
    | none => (List.range 4).foldl (fun s e => s.setReg .PAR_NODE_EXT 0 i e) ((s.setReg .PAR_NODE_LEN 0 i).setReg .PAR_NODE_SEL 0 i)) s
  (List.range 256).foldl (fun s j =>
    match shipTrans[j]? with
    | some (n, x, v, m) =>
      (s.setReg .PAR_TRANS_CTL (BitVec.ofNat 32 (n + x * 2 ^ 8 + 2 ^ 31)) j).setReg .PAR_TRANS_VAL (BitVec.ofNat 32 (v + m * 2 ^ 16)) j
    | none => (s.setReg .PAR_TRANS_CTL 0 j).setReg .PAR_TRANS_VAL 0 j) s

end Sys2Proof.Machine
end

