-- ==== Sys2Proof/Machine/Settings.lean ====
section
/-! DEFINITION. Persistent settings: the store copies, SAVE, SETTINGS_PUT and SETTINGS_GET, loading and migration at a start, and the
end of an ACTIVATE (R471 steps 8 and 9, R476 to R479). -/

namespace Sys2Proof.Machine

/-! ### The store (R476, R477) -/

/-- The copy in force: the valid one with the higher SEQ; true = B. -/
def Update.setForce (u : Update) : Option (Bool × Settings) :=
  match u.setA.valid, u.setB.valid with
  | true, true => if u.setA.seq < u.setB.seq then some (true, u.setB) else some (false, u.setA)
  | true, false => some (false, u.setA)
  | false, true => some (true, u.setB)
  | false, false => none

/-- R476: a record as bytes: GROUP and FMT, LEN, CRC, content. -/
def SetRec.bytes (x : SetRec) : List Byte :=
  let c := Config.settingsEnc x.group x.fmt x.items
  leBytes x.group 2 ++ leBytes x.fmt 2 ++ leBytes c.length 4 ++ leBytes (crc32 c).toNat 4 ++ c

/-- R476: a copy as bytes: its 64-byte header and its records. -/
def Settings.bytes (t : Settings) : List Byte :=
  let c := t.recs.flatMap SetRec.bytes
  slice (leBytes 0x54534553 4 ++ leBytes t.seq 4 ++ leBytes t.epoch.toNat 4 ++ leBytes c.length 4 ++ leBytes (crc32 c).toNat 4) 0 64 ++ c

/-- A copy written to the place not in force, with SEQ one higher. -/
def setWrite (s : State) (epoch : Word) (recs : List SetRec) : State :=
  let f := s.upd.setForce
  let t : Settings := { seq := (match f with | some x => x.2.seq | none => 0) + 1, epoch, recs, valid := true }
  { s with upd := if (match f with | some x => x.1 | none => true) then { s.upd with setA := t } else { s.upd with setB := t } }

/-- The committed set as records of format `fmt`: each register block's records and each table's entries. -/
def State.setRecs (s : State) (fmt : Nat) : List SetRec :=
  let regs := s.regs.filterMap (fun e =>
    match Reg.at? e.1 with
    | some (r, _, _) => if r.row.cfg then some (blockBase e.1 / 65536, e.1, [e.2]) else none
    | none => none)
  let tabs := (s.cfgTabs (ruleSpace s.ruleBank)).map (fun e => (0x100 + e.1, e.2.1, e.2.2))
  let all := regs ++ tabs
  (all.map (·.1)).eraseDups.map (fun g => { group := g, fmt, items := (all.filter (fun e => e.1 == g)).map (·.2) })

/-- R478: the records that every SAVE carries: those of a newer format whose group SETTINGS_PUT has not written. -/
def Update.carried (u : Update) : List SetRec :=
  match u.setForce with
  | none => []
  | some x => x.2.recs.filter (fun r => decide (u.runSet < r.fmt) && !u.putGroups.contains r.group)

/-- R477: SAVE. -/
def settingsSave (s : State) : State := setWrite s (s.reg .UPD_CFG_EPOCH) (s.setRecs s.upd.runSet ++ s.upd.carried)

/-- SAVE (R477, R492). -/
def execSave (r : Fin 2) (idx : BitVec 16) (desc _data : List Word) (s : State) : Ans :=
  onDie s (fun s => onCmd s r idx (cmdDesc desc 2 4) (fun s => cmdDone (settingsSave s) r idx.toNat 0 0))

/-- SETTINGS_GET (R492): the copy in force, and zeros beyond it. -/
def execSettingsGet (r : Fin 2) (idx : BitVec 16) (desc : List Word) (slabs : List SlabRead) (s : State) : Ans :=
  onDie s (fun s => onCmd s r idx (cmdDesc desc 2 6) (fun s =>
    let s := slabsSeen s slabs
    match s.argSlabs desc slabs with
    | none => cmdFree s r idx.toNat
    | some l =>
      if l.isEmpty then cmdDone s r idx.toNat 0 19
      else
        let b := match s.upd.setForce with | some x => x.2.bytes | none => []
        let s := s.puts ((l.zipIdx 0).map (fun e => .hostWrite (s.slabAddr e.1.slab) (slice b (4096 * e.2) 4096)))
        cmdDone (slabsEnd s l 2) r idx.toNat 0 0))

/-! ### SETTINGS_PUT (R479) -/

/-- A record as SETTINGS_PUT finds it: GROUP, FMT, its content, and whether its CRC and length are right. -/
structure PutRec where
  group : Nat
  fmt : Nat
  body : List Byte
  ok : Bool
deriving DecidableEq, Repr

/-- The records in the bytes of the slabs, up to a header of zeros or the end; each takes at least 12 bytes. -/
def putRecs : Nat → List Byte → List PutRec
  | 0, _ => []
  | fuel + 1, b =>
    if b.length < 12 ∨ (b.take 12).all (· == 0) then []
    else
      let len := leNat b 4 4
      let body := (b.drop 12).take len
      { group := leNat b 0 2, fmt := leNat b 2 2, body, ok := decide (body.length = len) && leWord b 8 == crc32 body } ::
        putRecs fuel (b.drop (12 + len))

/-- The memory of a configuration table's entries. -/
def tabSpace (t : Nat) : Space :=
  match t with | 0 => .fdb | 1 => .stream | 2 => .vlan | 3 => .group | 4 => .route | _ => .filter

/-- Seed place of a table (R84). -/
def tabSeed (t : Nat) : Nat := match t with | 0 => 0 | 1 => 2 | _ => 3

/-- R6: the reserved bits of a table's entry, and the fields that its other bits leave without a meaning, are zero. -/
def entForm (t : Nat) (e : List Word) : List Word :=
  let keep := fun (l : List (Nat × Word)) => l.foldl (fun e x => wset e x.1 (wd e x.1 &&& x.2)) ((List.range (tblWords t)).map (wd e))
  match t with
  | 0 => keep [(1, 0x7FFFFFFF), (2, 0x3FFFFFFF)]
  | 1 => keep [(5, 0xFFF), (6, 0x3FFFFFFF), (7, 0x3FFFFFF), (9, 0x17FFFFFF), (10, 0x1FFF3F)]
  | 2 => keep [(0, 0x3FFFFFF), (1, 0xFFFFFF), (2, 0x7FFF)]
  | 3 => keep [(0, 0x1FFFFFF)]
  | 4 => keep [(4, 0xFFF), (6, 0x0FFFFFFF), (7, 0x1F)]
  | 5 =>
    if bit (wd e 15) 31 then keep ([(2, 0x7FFFFFFF), (3, 0xFFF), (15, 0xFFFE0000)] ++ (List.range 11).map (fun i => (4 + i, 0)))
    else keep [(4, 0xFFFFFF)]
  | 7 => keep [(1, 0x7FFFFFFF), (2, 0x0FFFFFFF), (3, 0x0FFFFFFF), (4, 0x7FFFFFFF), (5, 0x1F)]
  | _ => e

/-- The configuration entries of a table in a plane go, and those of `items` come; index 0x10000 is the seed pair. -/
def Plane.tabLoad (p : Plane) (t : Nat) (sp : Space) (items : List (Nat × List Word)) : Plane :=
  let mine := fun (e : Nat × List Word) => t != 0 || bit (wd e.2 1) 29
  let p := ((p.ents sp).filter mine).foldl (fun p e => p.wr (sp.key e.1) []) p
  let p := if t = 0 ∨ t = 1 ∨ t = 4 then p.wr (Space.seed.key (tabSeed t)) [] else p
  items.foldl (fun p e => if e.1 = 0x10000 then p.wr (Space.seed.key (tabSeed t)) (seedEnt e.2) else p.wr (sp.key e.1) (entForm t e.2)) p

/-- A table's configuration is replaced in both planes. -/
def tabLoad (s : State) (t : Nat) (sp : Space) (items : List (Nat × List Word)) : State :=
  { s with twin := { s.twin with a := s.twin.a.tabLoad t sp items, b := s.twin.b.tabLoad t sp items } }

/-- The addresses of a group's configuration registers that do not hold their reset value. -/
def State.groupRegs (s : State) (g : Nat) : List Nat :=
  ((s.regs ++ s.prep).map (·.1)).filter (fun a => blockBase a / 65536 == g &&
    (match Reg.at? a with | some (r, _, _) => r.row.cfg | none => false))

/-- The prepared value of a register by address; a register of type RWL keeps its value once GLB_LOCK is set (R5). -/
def prepAddr (s : State) (a : Nat) (v : Word) : State :=
  match Reg.at? a with
  | some (r, _, _) =>
    if r.row.acc = .rwl && s.rbit .GLB_LOCK 0 then s
    else if r.row.cfg then { s.planePrep a (v &&& r.row.mask) with prep := SMap.put s.prep a (v &&& r.row.mask) } else s
  | none => s

/-- A group's prepared configuration becomes what a record says; entries of tables without a bank act at once. -/
def groupPrep (s : State) (g : Nat) (items : List (Nat × List Word)) : State :=
  if 0x100 ≤ g then
    let t := g - 0x100
    if 7 < t ∨ t = 6 then s
    else tabLoad s t (if t = 5 then s.prepBank else tabSpace t) items
  else
    let s := (s.groupRegs g).foldl (fun s a =>
      match Reg.at? a with | some (r, i, j) => prepAddr s a (r.resetAt i j) | none => s) s
    items.foldl (fun s e => if blockBase e.1 / 65536 = g then prepAddr s e.1 (wd e.2 0) else s) s

/-- R479: one record. -/
def putOne (s : State) (x : PutRec) : State :=
  let s := { s with upd := { s.upd with putGroups := (x.group :: s.upd.putGroups).eraseDups } }
  if x.fmt = s.upd.runSet then groupPrep s x.group (Config.settingsDec x.group x.fmt x.body)
  else
    ((groupPrep s x.group []).flag .UPD_EVENT .UPD_IRQ_EN 5).emitIf (s.rbit .UPD_CTRL 0) 0xD3 0 x.group

/-- R479, R481: SETTINGS_PUT, with its code. -/
def settingsPut (s : State) (b : List Byte) : Nat × State :=
  let l := putRecs (b.length / 12 + 1) b
  if s.upd.cfg.isSome then (16, s.flag .UPD_EVENT .UPD_IRQ_EN 12)
  else if l.any (fun x => !x.ok || decide (s.upd.runSet < x.fmt)) then (18, s)
  else (0, l.foldl putOne s)

/-- SETTINGS_PUT (R479, R492). -/
def execSettingsPut (r : Fin 2) (idx : BitVec 16) (desc : List Word) (slabs : List SlabRead) (s : State) : Ans :=
  onDie s (fun s => onCmd s r idx (cmdDesc desc 2 5) (fun s =>
    let s := slabsSeen s slabs
    match s.argSlabs desc slabs with
    | none => cmdFree s r idx.toNat
    | some l =>
      if l.isEmpty then cmdDone s r idx.toNat 0 19
      else
        let x := settingsPut (slabsEnd s l 2) (l.flatMap (fun e => slice e.data 0 4096))
        cmdDone x.2 r idx.toNat 0 x.1))

/-! ### Loading and migration (R478) -/

/-- R478: what becomes of a record under the running image; `bad` names the groups whose record fails its CRC. -/
inductive SetFate where
  | load | migrate | reset | carry
deriving DecidableEq, Repr

/-- The fate of a record. -/
def State.fate (s : State) (bad : List Nat) (x : SetRec) : SetFate :=
  if bad.contains x.group then .reset
  else if x.fmt = s.upd.runSet then .load
  else if s.upd.runSet < x.fmt then .carry
  else if s.upd.runMin ≤ x.fmt then .migrate
  else .reset

/-- A record migrated to the running image's format. -/
def migrateRec (s : State) (x : SetRec) : SetRec :=
  { x with fmt := s.upd.runSet, items := Config.settingsMig x.group x.fmt s.upd.runSet x.items }

/-- A group's active configuration, in both planes, becomes what a record says. -/
def groupLoad (s : State) (x : SetRec) : State :=
  if 0x100 ≤ x.group then
    let t := x.group - 0x100
    if 7 < t ∨ t = 6 then s
    else if t = 5 then tabLoad (tabLoad s 5 (ruleSpace s.ruleBank) x.items) 5 s.prepBank x.items
    else tabLoad s t (tabSpace t) x.items
  else
    let s := (s.groupRegs x.group).foldl (fun s a =>
      match Reg.at? a with | some (r, i, j) => s.setReg r (r.resetAt i j) i j | none => s) s
    x.items.foldl (fun s e =>
      match Reg.at? e.1 with
      | some (r, i, j) => if r.row.cfg ∧ blockBase e.1 / 65536 = x.group then s.setReg r (wd e.2 0 &&& r.row.mask) i j else s
      | none => s) s

/-- R478: one record of the copy in force is loaded, migrated, or leaves its group at its reset values. -/
def setLoadOne (bad : List Nat) (s : State) (x : SetRec) : State :=
  match s.fate bad x with
  | .load => groupLoad s x
  | .migrate => (groupLoad s (migrateRec s x)).flag .UPD_EVENT .UPD_IRQ_EN 3
  | .carry => s.flag .UPD_EVENT .UPD_IRQ_EN 4
  | .reset => s.flag .UPD_EVENT .UPD_IRQ_EN 4

/-- R478, R475: the set is written back after a migration, unless the start is a trial. -/
def setWriteBack (s : State) (bad : List Nat) : State :=
  match s.upd.setForce with
  | none => s
  | some x =>
    if s.upd.startKind = 3 ∨ !x.2.recs.any (fun r => s.fate bad r == .migrate) then s
    else setWrite s x.2.epoch (x.2.recs.filterMap (fun r =>
      match s.fate bad r with | .load => some r | .migrate => some (migrateRec s r) | .carry => some r | .reset => none))

/-- R69, R477, R478: the settings of a start: the shipped graph, then the copy in force; `okA` and `okB` say whether a copy's header
CRC matches. -/
def settingsStart (s : State) (okA okB : Bool) (bad : List Nat) : State :=
  let s := loadGraph s
  let s := { s with upd := { s.upd with setA := { s.upd.setA with valid := s.upd.setA.valid && okA },
                                        setB := { s.upd.setB with valid := s.upd.setB.valid && okB } } }
  let o := s
  let s := match s.upd.setForce with
    | none => s.flag .UPD_EVENT .UPD_IRQ_EN 4
    | some x => setWriteBack ((x.2.recs.foldl (setLoadOne bad) s).setReg .UPD_CFG_EPOCH x.2.epoch) bad
  let s := cfgEffects o s
  { s with upd := { s.upd with res := s.resTable } }

/-! ### The end of an ACTIVATE (R471 steps 8 and 9) -/

/-- ACTIVATE_SHEPHERD_RESTART (R471): Shepherd runs the new firmware, migrates the settings, raises counter 0 and makes the image the
one of BOOT starts; a trial leaves counter 0 and BOOT_SLOT (R474). -/
def execActivateShepherdRestart (s : State) : Ans :=
  onDie s (fun s =>
    if s.upd.act ≠ 8 then s
    else
      let trial := s.upd.trial
      let s := if trial then runImage s 2 3 else runImage s 0 2
      let migrates : Bool := match s.upd.setForce with | some x => x.2.recs.any (fun r => s.fate [] r == .migrate) | none => false
      let s := if migrates then (setWriteBack s []).flag .UPD_EVENT .UPD_IRQ_EN 3 else s
      let s := if trial then s else (keepStage (ctrRaise s 0 (s.reg .UPD_FW_SVN)) false).setRbit .KEEP_BOOT 0 false
      actEnd s 0)

end Sys2Proof.Machine
end

