-- ==== Sys2Proof/Machine/Start.lean ====
section
/-! DEFINITION. Start-up: the boot loader's choice, the start-up phases, the planes at a start and at a leave of the safe state, READY
(R237, R257, R454, R475, R490, R506 to R509). -/

namespace Sys2Proof.Machine

/-! ### The boot loader (R475, R508) -/

/-- The bytes of an area by slot number: 0 = MAIN, 1 = PRIOR, 2 = staging. -/
def Update.area (u : Update) (slot : Nat) : Area := if slot = 0 then u.mainArea else if slot = 1 then u.priorArea else u.stageArea

/-- Does an area hold a release image as shipped, whose bytes the manual does not give and which verifies (R551). -/
def Update.isShipped (u : Update) (slot : Nat) : Bool :=
  let b := if slot = 0 then u.mainBlock 0 else if slot = 1 then u.priorBlock 0 else u.stageBlock 0
  b.data.isEmpty && (match b.shipped with | some k => decide (k < 256) | none => false)

/-- R508: the slot's verification record still matches. -/
def Update.trusted (u : Update) (slot : Nat) : Bool :=
  match SMap.find? u.vrec slot with
  | some (c, h) => c == SMap.get 0 u.wcnt slot && h == sha384 (areaBytes (u.area slot) 0 0x80)
  | none => false

/-- R475: a slot is judged under R462; `flashOk` is false where the slot does not read back. A failure is logged. -/
def judgeSlot (s : State) (slot : Nat) (flashOk : Bool) : Bool × State :=
  let u := s.upd
  let f := u.area slot
  let code := if u.isShipped slot then (if imgSvn f < s.reg .KEEP_CTR 0 then 5 else 0)
    else imgVerify s.part (s.reg .KEEP_CTR 0) (u.trusted slot) f
  if flashOk && code = 0 then (true, s) else (false, faultLog s 18)

/-- R475: the staged image of a verified staging is copied into place, or a copy that was cut off goes on. -/
def bootCopy (s : State) (rep : StartupReport) : State :=
  let resumed := s.rfld .KEEP_BOOT 2 2 != 0
  let s := if s.rbit .KEEP_BOOT 1 && !resumed then
      let x := judgeSlot s 2 rep.stageValid
      if x.1 && areaWord x.2.upd.stageArea 0x20 == x.2.reg .KEEP_STAGE_TAG then keepCopy x.2 1 0 else x.2
    else s
  let s := if resumed then faultLog s 19 else s
  let s := if s.rfld .KEEP_BOOT 2 2 = 1 then keepCopy { s with upd := s.upd.mainToPrior } 2 0 else s
  if s.rfld .KEEP_BOOT 2 2 = 2 then
    ((keepStage (keepCopy { s with upd := s.upd.stageToMain } 0 0) false).setRbit .KEEP_BOOT 0 false)
  else s

/-- R475: the image that the boot loader starts, with its start kind; none = BOOT_HOLD. -/
def bootChoose (s : State) (rep : StartupReport) : Option (Nat × Nat) × State :=
  let p := if s.rbit .KEEP_BOOT 0 then judgeSlot s 1 rep.priorValid else (false, s)
  if p.1 then (some (1, 4), p.2)
  else
    let m := judgeSlot p.2 0 rep.mainValid
    if m.1 then (some (0, 1), m.2)
    else
      let g := judgeSlot m.2 2 rep.stageValid
      if g.1 then (some (0, 4), { g.2 with upd := g.2.upd.stageToMain })
      else
        let q := judgeSlot g.2 1 rep.priorValid
        if q.1 then (some (1, 4), q.2.setRbit .KEEP_BOOT 0 true) else (none, q.2)

/-- R507, R508: the started slot is hashed in full unless its verification record matches, which is then written. -/
def bootHash (s : State) (slot : Nat) : State :=
  let u := s.upd
  if u.trusted slot then s
  else
    let r := (SMap.get 0 u.wcnt slot, sha384 (areaBytes (u.area slot) 0 0x80))
    { s with upd := { u with hashed := true, vrec := SMap.put u.vrec slot r } }

/-! ### The planes (R237, R247) -/

/-- A plane that passed the full pass of its self-test. -/
def Plane.passed (p : Plane) : Plane := { p with stOk := true, sliceBad := false, slice := 0, passes := (p.passes + 1) % 256 }

/-- R237: after their self-tests the preferred plane, or else the other, is ACTIVE; a passing other one goes through RESYNC, a
failing one is FAILED. -/
def planesUp (s : State) (aPass bPass : Bool) : State :=
  let up := fun (p : Plane) (ok : Bool) => if ok then { p.passed with mode := .resync } else { p with mode := .failed, stOk := false, passes := (p.passes + 1) % 256 }
  let s := { s with twin := { s.twin with a := up s.twin.a aPass, b := up s.twin.b bPass } }
  let pref := s.rbit .TWIN_CTRL 0
  let ok := fun (b : Bool) => if b then bPass else aPass
  if !aPass && !bPass then s
  else
    let b := if ok pref then pref else !pref
    let p := s.plane b
    reaccept (s.setPlane b { p with mode := .active, claim := 0xC0 + p.score, renewOk := true })

/-! ### Start-up (R490, R506) -/

/-- R490: the keep domain is written as after a loss, the counters and the epoch ceiling restored. -/
def keepFactory (s : State) : State :=
  let keep := fun (a : Nat) => decide (a < 0x20100 ∨ 0x22000 ≤ a)
  let factory := SMap.keep (fun a => !keep a) State.reset.regs
  ctrRestore { s with regs := SMap.merge factory (SMap.keep keep s.regs) }

/-- R490: is a register one whose uncorrectable word fails the integrity check; KEEP_HDR, whose MAGIC and LAYOUT cannot then be
judged right, is taken as one (log entry 73). -/
def keepVital (r : Reg) : Bool :=
  match r with
  | .KEEP_HDR => true | .KEEP_BOOT => true | .KEEP_STAGE_TAG => true | .KEEP_SAFE_CAUSE => true
  | _ => false

/-- R490: an uncorrectable word of replica (i, j) at address `a`. A pointer copy and a coefficient record get a free word and fail
their check; a word for which the manual states nothing is a free value (log entries 1 and 73). -/
def keepWord (s : State) (r : Reg) (i j a : Nat) : State :=
  let x := s.fresh
  match r with
  | .KEEP_CTR => s.setReg r (s.upd.value i) i
  | .KEEP_CFG_EPOCH_HI => s.setReg r (s.upd.value 32)
  | .KEEP_KS_PTR0 | .KEEP_KS_PTR1 => let s := x.2.setReg r x.1 i; s.setRbit r 1 true 1
  | .KEEP_COEF =>
    let s := if j = 23 then s else x.2.setReg r x.1 i j
    s.setReg r (~~~coefCheck ((List.range 23).map (s.coef i))) i 23
  | .KEEP_FAULT => (List.range 4).foldl (fun s w => s.setReg r 0 i w) s
  | .KEEP_RETIRED => s.setReg r 0 i
  | .KEEP_FAULT_HEAD => x.2.setReg r (x.1 &&& 0xFF1F)
  | _ => if a < 0x20280 then s.setReg r (wakeFactory a) i j else x.2.setReg r x.1 i j

/-- R490: the words with an uncorrectable error that do not fail the integrity check, each with its KEEP_ECC entry. -/
def keepWords (s : State) (l : List Nat) : State :=
  let l := l.filterMap (fun a => match Reg.at? (keepAlias a) with
    | some (r, i, j) => if Reg.keptAddr (keepAlias a) && decide (0x20000 ≤ keepAlias a) && !keepVital r then some (r, i, j, keepAlias a)
      else none
    | none => none)
  let s := l.foldl (fun s e => keepWord s e.1 e.2.1 e.2.2.1 e.2.2.2) s
  l.foldl (fun s _ => faultLog s 21) s

/-- R490: does the keep domain fail its integrity check at this start. -/
def State.keepFails (s : State) (rep : StartupReport) : Bool :=
  !rep.keepOk || s.rfld .KEEP_HDR 0 24 != 0x014B45 ||
    rep.keepEcc.any (fun a => match Reg.at? a with | some (r, _, _) => keepVital r | none => false)

/-- R464, R490: phase 2: the keep domain is judged word by word and the counters are restored; with a failed integrity check the
boot loader takes BOOT_SLOT = MAIN with nothing staged. -/
def keepPhase (s : State) (rep : StartupReport) : State :=
  let t := ctrRestore (keepWords s rep.keepEcc)
  if s.keepFails rep then t.setReg .KEEP_BOOT 0 else t

/-- R454: the first start after a wake. -/
def wakeNews (s : State) : State :=
  if s.reg .CLK_RST_CAUSE ≠ 3 then s
  else
    let l := s.reg .BUG_WAKE_LATCH
    let s := (bugFlag s 8).emitIf (s.rbit .BUG_SLEEP_CFG 1) 0xC1 0 (fld l 0 9 + (if bit l 9 then 2 ^ 9 else 0)) [l >>> 16]
    bugleEvent s 4 0 (fld l 0 4) (fld l 4 5)

/-- R389: cores that fail their start-up self-test leave service. -/
def coresStart (s : State) (bad : BitVec 4) : State :=
  (List.range 4).foldl (fun s c =>
    if bad.getLsbD c then coreOut s c
    else s) s

/-- Phases 4 to 6 with the image that phase 3 chose. Counter 30 goes up here once, before the first sector of this start (R414), and
counter 31 before the gateway's first frame (R288). -/
def startRest (s : State) (rep : StartupReport) (run kind : Nat) (keepBad : Bool) : State :=
  let s := runImage (bootHash s run) run kind
  let s := if kind = 4 then faultLog s 20 else s
  let s := loadShipped s (imgHash (s.upd.area run))
  let s := clkOn (clkOn s 2) 12
  let s := settingsStart s rep.setA rep.setB rep.badRecs
  let s := { s with twin := { s.twin with lastMem := s.twin.a.mem } }
  let s := coresStart (keyStart s rep.storeA rep.storeB) rep.coreFails
  let s := ctrInc (ctrInc s 30) 31
  let s := s.setReg .UPD_LLDP_OUI (BitVec.ofNat 32 Config.oui.toNat)
  let s := wakeNews s
  let s := if s.bug.vbatLow then bugFlag { s with bug := { s.bug with vbatLow := false } } 4 else s
  let s := planesUp s rep.aPass rep.bPass
  let s := { s with clk := { s.clk with phase := 6 } }
  let cause := if keepBad then 6 else s.clk.doubt
  let s := if keepBad then (keepFactory s).setRfld .KEEP_BOOT 16 3 kind else s
  if cause = 0 then s else enterSafe { s with clk := { s.clk with doubt := 0 } } cause

/-- STARTUP (R506): phases 1 to 6. -/
def startup (s : State) (rep : StartupReport) : State :=
  if s.clk.phase ≠ 1 then s
  else
    let keepBad := s.keepFails rep
    let x := bootChoose (bootCopy (keepPhase s rep) rep) rep
    match x.1 with
    | none => { x.2 with clk := { x.2.clk with phase := 3 }, upd := { x.2.upd with bootHold := true } }
    | some (run, kind) => startRest x.2 rep run kind keepBad

/-- STARTUP (R506). -/
def execStartup (rep : StartupReport) (s : State) : Ans := onDie s (fun s => startup s rep)

/-- R463: a BOOT start ends: counter 0 is raised to the running image's SVN. -/
def bootEnd (s : State) : State := if s.upd.startKind = 1 then ctrRaise s 0 (s.reg .UPD_FW_SVN) else s

/-- READY (R509): forwarding begins, and FAULT_N is released; with a doubt since the start the safe state is entered instead, at
the end of phase 6. -/
def execReady (s : State) : Ans :=
  onDie s (fun s =>
    if s.clk.phase = 6 && !s.twin.safe && s.clk.doubt != 0 then enterSafe { s with clk := { s.clk with doubt := 0 } } s.clk.doubt
    else if s.clk.phase = 6 && !s.twin.safe then
      bootEnd { s with clk := { s.clk with phase := 7 }, bug := { s.bug with faultN := false } }
    else s)

/-! ### Leaving the safe state (R257) -/

/-- R257 step 3, R108: an entry of the committed set as loaded anew; learned entries, connections and other state are not kept. -/
def leaveEnt (k : Nat) (e : List Word) : Option (List Word) :=
  let of := fun (sp : Space) => k / 2 ^ 20 == sp.ctorIdx
  if of .fdb then (if fdbStatic e then some e else none)
  else if of .stream then some (strAnew e)
  else if of .filter then some (stateZero 7 e)
  else if of .conn || of .gen || of .lastAcc || of .meter then none
  else some e

/-- R257 step 3: the memory that both planes take: the committed set, each entry where it stood. -/
def State.leaveMem (s : State) : SMap (List Word) :=
  (s.twin.lastMem.foldl (fun p e => match leaveEnt e.1 e.2 with | some v => p.wr e.1 v | none => p) ({} : Plane)).mem

/-- R108: the sequence mirror's fields of the streams of a memory, set anew. -/
def anewMirror (mem : SMap (List Word)) : SMap Mirror :=
  (({ mem := mem } : Plane).ents .stream).foldl (fun m e => SMap.set ({} : Mirror) m e.1 { takeAny := true }) []

/-- R257 steps 2 to 5, with the outcome of both self-tests. -/
def leaveEnd (s : State) (aPass bPass : Bool) : State :=
  if !aPass && !bPass then { s with twin := { s.twin with result := 4, leaving := false } }
  else
    let mem := s.leaveMem
    let fresh := fun (p : Plane) => { p.fall .selftest with mem }
    let s := { s with twin := { s.twin with a := fresh s.twin.a, b := fresh s.twin.b, safe := false, result := 0, leaving := false,
                                            mirror := anewMirror mem, fresh := [], ckpt := [], refilled := [], noclaim := 0, exactQ := [], lazyQ := [], dirty := [],
                                            metered := [] } }
    let s := planesUp s aPass bPass
    let s := { s with twin := s.twin.setPrep s.prep }
    let s := { s with bug := { s.bug with faultN := false }, gpioHold := none, clk := { s.clk with phase := 7 } }
    let s := (List.range 16).foldl (fun s e => if (s.engine e).halted then engRestart s e else s) s
    (List.range 16).foldl (fun s t => if s.rbit .TIME_TRIG_CFG 0 t then trigArm s t else s) s

/-- SAFE_LEAVE_RESULT (R257): the leave's self-tests and reload end. -/
def execSafeLeaveResult (aPass bPass : Bool) (s : State) : Ans :=
  onDie s (fun s => if s.twin.safe && s.twin.leaving then leaveEnd s aPass bPass else s)

end Sys2Proof.Machine
end

