-- ==== Sys2Proof/Machine/Clocks.lean ====
section
/-! DEFINITION. Clock gating, clock monitors, the PCIe reference and the reset levels (R470, R495 to R505). -/

namespace Sys2Proof.Machine

/-! ### Gating (R497) -/

/-- The CLK_GATE bits that software writes (R510). -/
def gateBits : List Nat := [2, 3, 4, 5, 6, 7, 8, 9, 12]

/-- R497: has the domain of a CLK_GATE bit an enabled user. -/
def State.clkUsed (s : State) (k : Nat) : Bool :=
  if k = 2 then (List.range 16).any (fun e => s.rbit .KLP_ENG_CTRL 0 e)
  else if k = 12 then (List.range 8).any (fun c => s.rbit .GW_CAN_CTRL 0 c) || (List.range 4).any (fun l => s.rbit .GW_LIN_CTRL 0 l)
  else (List.range 22).any (fun n => portClk n == k && s.rbit .PORT_CTRL 0 n)

/-- R497: is the CLK_GATE bit one of the part's: MAC10 instances 2 and 3 are absent on the AM7220. -/
def State.hasGate (s : State) (k : Nat) : Bool := s.part == .am7240 || (k != 5 && k != 6)

/-- R497: one bit of CLK_GATE takes a value. -/
def gateBit (s : State) (k : Nat) (stop : Bool) : State :=
  if !s.hasGate k || s.rbit .CLK_GATE k == stop then s
  else if !stop then clkOn s k
  else if s.clkUsed k then s.flag .CLK_EVENT .CLK_IRQ_EN 3
  else clkOff s k

/-- R497: a write to CLK_GATE. -/
def gateWrite (s : State) (w : Word) : State := gateBits.foldl (fun s k => gateBit s k (bit w k)) s

/-- CLOCK_STOP (R497): CLK_GATE is written with the bits of `w` set besides those that are. -/
def execClockStop (w : Word) (s : State) : Ans := onBar0 s .CLK_GATE 0 (fun s => gateWrite s (s.reg .CLK_GATE ||| w))

/-! ### Monitors (R496, R502) -/

/-- R502: the monitor of a CLK_MON_STATUS bit is armed: the clock it watches is meant to run. -/
def State.monArmed (s : State) (m : Nat) : Bool :=
  if m = 0 ∨ m = 1 ∨ m = 8 ∨ m = 9 ∨ m = 11 then true
  else if m = 10 then s.rbit .CLK_DOMAIN_STATUS 2
  else if m = 12 then s.rbit .CLK_DOMAIN_STATUS 12
  else if m = 13 then s.rbit .CLK_DOMAIN_STATUS 9
  else if 16 ≤ m ∧ m ≤ 21 then s.rbit .CLK_DOMAIN_STATUS (m - 13)
  else false

/-- R496: the PCIe reference is lost: PCIE stops, the HIF and WIN blocks are as after a PERST_N reset. -/
def pcieLost (s : State) : State :=
  if !s.clk.pcieRef then s
  else
    let s := hifReset (s.setRbit .CLK_MON_STATUS 2 false)
    (pcieClock { s with clk := { s.clk with pcieRef := false } }).flag .CLK_EVENT .CLK_IRQ_EN 2

/-- CLOCK_MONITOR_FAIL (R502): the monitor of bit `m` of CLK_MON_STATUS fails; PCIREF is R496's. -/
def execClockMonitorFail (m : Fin 32) (s : State) : Ans :=
  onDie s (fun s =>
    if m.val = 2 then pcieLost s
    else if !s.monArmed m then s
    else
      let s := (s.setRbit .CLK_MON_STATUS m false).flag .CLK_EVENT .CLK_IRQ_EN 0
      doubt (if m.val = 1 then s.flag .CLK_EVENT .CLK_IRQ_EN 1 else s) 2)

/-- PCIE_REF_LOST (R496). -/
def execPcieRefLost (s : State) : Ans := onDie s pcieLost

/-- PCIE_REF_RETURN (R496). -/
def execPcieRefReturn (s : State) : Ans :=
  onDie s (fun s => pcieClock ({ s with clk := { s.clk with pcieRef := true } }.setRbit .CLK_MON_STATUS 2 true))

/-- Monitors that pass again show it (R510, R457). -/
def monitorsBack (s : State) (mon rail : Word) : State :=
  let s := s.setReg .CLK_MON_STATUS (s.reg .CLK_MON_STATUS ||| (mon &&& 0x003F3F03))
  s.setReg .BUG_RAIL_STATUS (s.reg .BUG_RAIL_STATUS ||| (rail &&& 0x1F))

/-- R500: the first overflow of a crossing's pulse counter sets XING_OVF and records the pair of domains. -/
def crossingOverflow (s : State) (x : Option (Fin 9 × Fin 9)) : State :=
  match x with
  | none => s
  | some p =>
    if p.1 = p.2 ∨ s.reg .CLK_XING_OVF_SRC ≠ 0 then s
    else (s.setReg .CLK_XING_OVF_SRC (BitVec.ofNat 32 (p.1.val + p.2.val * 16))).flag .CLK_EVENT .CLK_IRQ_EN 4

/-! ### Reset levels (R504, R505) -/

/-- R505: a write to CLK_RST_CMD: the reset comes 10 µs later. -/
def rstCmdWrite (s : State) (w : Word) : State :=
  if fld w 0 16 = 0xB007 ∧ bit w 16 ∧ s.clk.rstAt = none then { s with clk := { s.clk with rstAt := some (s.time.cnt + 3125) } } else s

/-- CLK_RST_CMD (R505). -/
def execClkRstCmd (w : Word) (s : State) : Ans := onBar0 s .CLK_RST_CMD 0 (fun s => rstCmdWrite s w)

/-- Is the D-die meant to be powered (R430). -/
def State.powered (s : State) : Bool := s.bug.power == .active || s.bug.power == .doze

/-- RESET_N (R504): low for at least 1 µs holds the D-die in reset; its rise starts it. -/
def execResetN (low : Bool) (s : State) : Ans :=
  onResetLand s (!low) (fun s =>
    let up := s.dOn
    let was := s.clk.resetN
    let s := { s with clk := { s.clk with resetN := !low } }
    if low then
      if up then
        let s := dieReset s
        { s with dOn := false, bug := { s.bug with faultN := true } }
      else s
    else if !was && s.powered then dieStart s 2 else s)

/-- POWER_ON (R431, R504, R506): VBAT rises through 3.0 V and has qualified: everything is reset but what lies in the F-die. -/
def execPowerOn (s : State) : Ans :=
  always s (fun s =>
    if s.bug.power != .off then s
    else
      { State.reset with
        pending := s.pending, part := s.part, out := s.out, free := s.free, dOn := s.clk.resetN,
        upd := s.upd.flash, cry := { storeA := s.cry.storeA, storeB := s.cry.storeB },
        clk := { resetN := s.clk.resetN, pcieRef := s.clk.pcieRef }, hif := { perst := s.hif.perst } } |> pcieClock)

/-- R254: is a lockstep mismatch one that recurs. -/
def State.lockstepAgain (s : State) : Bool :=
  (s.clk.shepDown && s.clk.shepLock) ||
    (match s.clk.shepBeat with | some b => decide ((s.beat - b).toNat < 2 ^ 17) | none => false)

/-- SHEPHERD_RESET (R504): a lockstep mismatch, or the Shepherd watchdog: Shepherd restarts. In the safe state of cause
SHEP_LOCKSTEP, which a recurring mismatch enters, it is halted (R255) and no restart is counted. -/
def execShepherdReset (lockstep : Bool) (s : State) : Ans :=
  onDie s (fun s =>
    if s.twin.safe && s.twin.cause == 5 then s
    else
      let again := lockstep && s.lockstepAgain
      let lock := (s.clk.shepDown && s.clk.shepLock) || lockstep
      let t := { s with clk := { s.clk with shepDown := true, shepLock := lock } }
      if again then doubt t 5 else t.satInc .GLB_SHEP_STATUS 8 8)

/-- SHEPHERD_RESTART_DONE (R504): RUNNING returns to 1. -/
def execShepherdRestartDone (s : State) : Ans :=
  onDie s (fun s =>
    if !s.clk.shepDown || (s.twin.safe && s.twin.cause == 5) then s
    else { s with clk := { s.clk with shepDown := false, shepLock := false,
                                      shepBeat := if s.clk.shepLock then some s.beat else s.clk.shepBeat } })

/-- ECU_RESET (R470, R504): UDS hardReset makes a D-die reset. -/
def execEcuReset (tester : BitVec 16) (s : State) : Ans :=
  onDie s (fun s => if s.shepUp then dieStart (s.put (.uds tester.toNat 0)) 7 else s)

end Sys2Proof.Machine
end

