-- ==== Sys2Proof/Machine/Telemetry.lean ====
section
/-! DEFINITION. Counter snapshots and counter reads (R511, R514, R521). -/

namespace Sys2Proof.Machine

/-- R514: a write to TEL_SNAP_CMD. -/
def snapCmd (s : State) (w : Word) : State :=
  let s := if bit w 2 then { s with snapAt := none } else s
  if bit w 0 then
    { s with snapAt := some (if bit w 1 then some (BitVec.ofNat 48 (s.reg64 .TEL_SNAP_AT_LO .TEL_SNAP_AT_HI)) else none) }
  else s

/-- TEL_SNAP_TAKE (R514). -/
def execTelSnapTake (w : Word) (s : State) : Ans := onBar0 s .TEL_SNAP_CMD 0 (fun s => snapCmd s (setBit (setBit w 0 true) 2 false))

/-- TEL_SNAP_CANCEL (R514). -/
def execTelSnapCancel (s : State) : Ans := onBar0 s .TEL_SNAP_CMD 0 (fun s => snapCmd s 4)

/-- R513: the offsets of family QMAX, whose maxima restart from zero at each snapshot. -/
def isQmax (off : Nat) : Bool := decide (0x6400 ≤ off) && decide (off < 0x7000)

/-- Step 2 of R20: a snapshot that is due at the boundary into the current beat latches every live counter. -/
def snapStep (s : State) : State :=
  match s.snapAt with
  | none => s
  | some at_ =>
    if (match at_ with | some b => ahead b s.beat | none => false) then s
    else
      let s := { s with snapAt := none, snap := s.ctrs, ctrs := SMap.keep (fun k => !isQmax k) s.ctrs }
      let s := s.setReg .TEL_SNAP_STATUS (BitVec.ofNat 32 (1 + (s.rfld .TEL_SNAP_STATUS 8 8 + 1) % 256 * 256))
      s.setReg64 .TEL_SNAP_BEAT_LO .TEL_SNAP_BEAT_HI s.beat.toNat

/-- Is a TEL offset in the live counters or the snapshot counters (R521). -/
def isCounter (off : Nat) : Bool := decide (0x1000 ≤ off ∧ off < 0x80000) || decide (0x81000 ≤ off ∧ off < 0x100000)

/-- R511: a read of a counter word; the low word latches the high one. -/
def counterRead (s : State) (off : Nat) : Word × State :=
  if off % 8 = 0 then
    let v := if off < 0x80000 then SMap.get 0 s.ctrs off else SMap.get 0 s.snap (off - 0x80000)
    (v.truncate 32, { s with hiLatch := SMap.set 0 s.hiLatch (off + 4) ((v >>> 32).truncate 32) })
  else (SMap.get 0 s.hiLatch off, s)

end Sys2Proof.Machine
end

