-- ==== Sys2Proof/Machine/Status.lean ====
section
/-! DEFINITION. The registers that show state held elsewhere: what a read of each of them gives (R58, R74, R130, R165, R193, R224, R230,
R259, R292, R324, R348, R382, R383, R408, R427, R428, R459, R494, R510, R521, R523). -/

namespace Sys2Proof.Machine

/-- A field value at its place in a word. -/
def at_ (lo v : Nat) : Nat := v * 2 ^ lo

/-- A flag at its place in a word. -/
def on_ (lo : Nat) (b : Bool) : Nat := if b then 2 ^ lo else 0

/-- A number as a register word. -/
def word (n : Nat) : Word := BitVec.ofNat 32 n

/-- The two words of a 64-bit value. -/
def loW (v : Wide) : Word := v.truncate 32
/-- The upper word of a 64-bit value. -/
def hiW (v : Wide) : Word := (v >>> 32).truncate 32

/-- R324: KLP_ENG_STATUS.STATE. -/
def State.engState (s : State) (e : Nat) : Nat :=
  let g := s.engine e
  if g.image.isNone then 0
  else if g.halted then 5
  else if g.faulted then 4
  else if !g.en then 6
  else match g.run with
    | .idle => 1
    | .main => 2
    | .event _ => 3

/-- R318: KLP_LOAD_STATUS.STATE. -/
def LoadState.code (l : LoadState) : Nat := l.ctorIdx

/-- R259: a health report. -/
def State.health (s : State) (b : Bool) : Nat :=
  let p := s.plane b
  if s.clk.phase = 1 then 0 else
  p.score + at_ 6 p.mode.ctorIdx + on_ 9 (s.eligibleStandby b) + on_ 10 p.lagging + on_ 11 (p.stOk && !p.sliceBad) +
    at_ 16 (p.failSeg % 32) + at_ 24 (p.passes % 256)

/-- R408: CRY_SLOT_STATUS. -/
def Slot.word (x : Slot) : Nat :=
  x.st.ctorIdx + on_ 3 x.attr.klen + at_ 4 (x.attr.use % 16) + on_ 8 x.attr.engine + on_ 9 x.attr.exportable + on_ 10 x.attr.preload +
    on_ 11 x.swapAt.isSome + at_ 16 (x.attr.keyId % 65536)

/-- R292: GW_CAN_STATUS. -/
def State.canStatus (s : State) (c : Nat) : Nat :=
  let x := s.can c
  (if !x.on then 3 else if x.busoff then 2 else if x.passive then 1 else 0) + on_ 2 x.cfgErr + at_ 3 (s.canXmode c) +
    at_ 8 (min x.tec 255) + at_ 16 (min x.recv 255)

/-- R171: the descriptor of a linked or written copy. -/
def State.descWords (s : State) (c : Copy) : List Word :=
  let q := s.queue (queueNo c.port c.tc)
  let next := ((q.list.dropWhile (fun k => k != c.id)).drop 1).head?.bind s.copyOf
  [word (c.cell + at_ 15 (cellsOf c.len) + on_ 21 c.picture + on_ 22 c.eop + on_ 23 (!c.tap.isEmpty) + on_ 24 c.yellow),
   word (c.len + at_ 14 (c.stream.getD 0) + on_ 26 c.stream.isSome + at_ 27 c.tc),
   loW c.enq,
   word ((match next with | some d => d.desc | none => 0) + at_ 16 c.fresh),
   word (c.track.getD 0 + on_ 11 c.track.isSome)]

/-- R193: word `i` of the descriptor that BUF_DBG_INDEX names; one that no copy has used since the reset reads 0,
and of one that is free again the manual states no content (log entry 1). -/
def dbgDesc (s : State) (i : Nat) : Word × State :=
  match s.copies.find? (fun c => c.counted && c.desc == s.rfld .BUF_DBG_INDEX 0 15) with
  | some c => (wd (s.descWords c) i, s)
  | none =>
    if (List.range s.nextCopy).any (fun k => (Config.descIndex k).toNat == s.rfld .BUF_DBG_INDEX 0 15) then s.fresh else (0, s)

/-- R58: PORT_FASTLINK_STATUS: the port's record. -/
def State.fastlink (s : State) (n : Nat) : Nat :=
  if s.coefValid n then 1 + at_ 1 (fld (s.coef n 0) 0 3) + at_ 4 (fld (s.coef n 0) 3 1) else 0

/-- R193: BUF_PORT_STATE. -/
def State.portState (s : State) (n : Nat) : Nat :=
  match (s.port n).hold with
  | .normal => 0
  | .held d => 1 + at_ 16 (s.rfld .BUF_PORT_HOLD 0 16 n - (s.beat - d).toNat)
  | .down => 2

/-- R130: LKP_BLOCKED entry `k`. -/
def State.blockedEnt (s : State) (k : Nat) : Nat × Nat :=
  match s.act.blocked[k]? with
  | none => (0, 0)
  | some (fid, mac) => (mac % 2 ^ 32, mac / 2 ^ 32 % 65536 + at_ 16 fid + on_ 31 true)

/-- R459: BUG_PWR_STATUS; DOZE_CAUSE is kept in the register. -/
def State.pwrStatus (s : State) : Nat :=
  on_ 0 (s.bug.power == .doze) + at_ 2 s.bug.seq.ctorIdx + at_ 5 (s.bug.target % 4) + at_ 7 (s.holds % 8) + on_ 12 s.bug.vbatOk +
    at_ 16 (s.rfld .BUG_PWR_STATUS 16 4)

/-- R494: whole seconds of the counter, saturating at 255. -/
def secs (d : Wide) : Nat := min 255 (d.toNat / 312500000)

/-- R427: cells of copies that a tap has marked and not yet read, 12 bits. -/
def State.tapStatus (s : State) (t : Nat) : Nat :=
  s.backlog t % 4096 + on_ 16 (s.rtap t).frozen + on_ 17 (s.rtap t).shortPre + on_ 18 (s.rtap t).shortPost

/-- R348: TIME_TRIG_STATUS. -/
def State.trigStatus (s : State) (t : Nat) : Nat :=
  let x := s.trig t
  x.pulses % 65536 + on_ 16 x.armed + on_ 17 (s.trigLevel t) + at_ 24 (min x.skips 255)

/-- R204, R230: TM_Q_MAXWIN. -/
def State.maxWinWord (s : State) (q : Nat) : Nat :=
  if q / 8 < 22 then match (s.port (q / 8)).gate.maxWin (q % 8) with | some n => n | none => 2 ^ 31 else 2 ^ 31

/-- Reads of the link and port blocks that show other state. DESIGN CHOICE (log entry 90): COUNT of LKP_FDB_STATUS counts every entry of the
FDB with its valid bit set, in the stash too and of a stale generation too. -/
def liveCore (s : State) (r : Reg) (i : Nat) : Option Word :=
  match r with
  | .GLB_DEVICE_ID => some (match s.part with | .am7240 => 0x00B07240 | .am7220 => 0x00B07220)
  | .GLB_SHEP_STATUS => some (word (on_ 0 (!s.clk.shepDown) + at_ 8 (s.rfld .GLB_SHEP_STATUS 8 8)))
  | .CLK_HANG_STATUS => some (word (s.clk.hung.length % 8 + at_ 6 (match s.clk.hung with | [] => 0 | x :: _ => x.1)))
  | .CLK_START_STATUS => some (word (s.clk.phase % 8 + on_ 8 s.upd.hashed))
  | .BUG_PWR_STATUS => some (word s.pwrStatus)
  | .PORT_LINK_STATUS => some (setBit (s.reg .PORT_LINK_STATUS i) 15 (s.twin.safe && s.rbit .PORT_CTRL 0 i))
  | .PORT_FASTLINK_STATUS => some (word (s.fastlink i))
  | .PORT_PLCA_STATUS => some (word (on_ 0 (s.pst i)))
  | .LKP_FDB_STATUS =>
    let l := (s.act.ents .fdb).filter (fun e => fdbValid e.2)
    some (word (l.length + at_ 15 ((l.filter (fun e => decide (s.fdbStash ≤ e.1))).length) + on_ 22 s.act.migrating + on_ 23 s.act.epoch))
  | .LKP_LEARN_STATUS => some (word (s.act.learnQ.length + at_ 9 s.act.refreshQ.length + at_ 16 s.act.blocked.length))
  | .LKP_ROUTE_STATUS =>
    let n := ((s.act.ents .route).filter (fun e => rtValid e.2)).length
    some (word (match s.part with | .am7240 => n | .am7220 => n + at_ 16 (s.rtLens false).length + at_ 20 (s.rtLens true).length))
  | .LKP_BLOCKED_LO => some (word (s.blockedEnt i).1)
  | .LKP_BLOCKED_HI => some (word (s.blockedEnt i).2)
  | .LKP_PORT_LEARNED => some (word (s.learned i))
  | .LKP_PORT_GEN => some (word (s.act.genOf i))
  | .TBL_CMD => some (setBit (s.reg .TBL_CMD) 31 s.tblBusy)
  | .FW_STATUS =>
    some (word (s.ruleBank + on_ 1 (s.ruleCopy != 0) + at_ 2 s.act.createQ.length + at_ 10 s.act.updateQ.length +
      at_ 17 (((s.act.ents .conn).filter (fun e => ctValid e.2)).length % 2 ^ 14)))
  | .FW_CT_GEN => some (word (s.act.genOf 24))
  | .FW_HOOK_STATUS => some (word ((s.engine (8 + i)).hookPart.length + on_ 7 (s.engine (8 + i)).faulted))
  | .BUF_STATUS => some (word (s.freeCells % 65536 + on_ 16 (s.audit != 0)))
  | .BUF_SHARED => some (word (s.sharedSize + at_ 16 s.sharedFree))
  | .BUF_HOLD_STATUS => some (word (s.holdFree + at_ 16 s.holdSharedFree))
  | .BUF_ECC_STATUS => some (word s.retired)
  | .BUF_PORT_STATE => some (word (s.portState i))
  | .BUF_Q_DEPTH => some (word (s.qUsed i + at_ 16 (s.qCopies i)))
  | _ => none

/-- Reads of the scheduler, gateway, Kelpie and time blocks that show other state. -/
def liveEdge (s : State) (r : Reg) (i j : Nat) : Option Word :=
  match r with
  | .TM_STATUS => some (word (s.pics.length + on_ 12 s.picFull))
  | .TM_GATE_STATUS =>
    some (word ((s.port i).gateEnt % 256 + at_ 8 ((s.port i).gateStates % 256) + on_ 16 (s.port i).gatePend.isSome))
  | .TM_POL_TC => some (wd (s.tget .meter i) 0)
  | .TM_POL_TP => some (wd (s.tget .meter i) 1)
  | .TM_Q_MAXWIN => some (word (s.maxWinWord i))
  | .TM_Q_CREDIT => some (BitVec.ofInt 32 (((accrue s i).queue i).credit / 2500))
  | .GW_STATUS => some (word (32768 - s.gw.rxBuf.foldl (fun a x => a + x.size) 0))
  | .GW_START_CNT => some (s.reg .KEEP_CTR 31)
  | .GW_CAN_STATUS => some (word (s.canStatus i))
  | .GW_LIN_STATUS => some (word ((s.linc i).ent % 32 + on_ 5 (s.linc i).active))
  | .GW_TUN_STATUS => some (word ((s.tunnel i).txSeq % 256 + at_ 8 ((s.tunnel i).rxSeq % 256)))
  | .KLP_STATUS =>
    some (word ((List.range 16).foldl (fun a e =>
      a + on_ e (decide (1 ≤ s.engState e ∧ s.engState e ≤ 3)) + on_ (16 + e) (s.engine e).faulted) 0))
  | .KLP_LOAD_STATUS => some (setFld (setFld (s.reg .KLP_LOAD_STATUS) 0 3 s.loader.state.code) 4 4 s.loader.eng)
  | .KLP_ENG_STATUS => some (setFld (setFld (s.reg .KLP_ENG_STATUS i) 0 3 (s.engState i)) 20 3 (min 4 (s.recentFaults i).length))
  | .KLP_ENG_IMAGE_CRC => some (match (s.engine i).image with | none => 0 | some g => g.crc)
  | .TIME_STATUS => some (word (on_ 0 (s.time.err != 0) + on_ 1 s.time.resync))
  | .TIME_CNT_HI => some s.time.cntHi
  | .TIME_BEAT_LO => some (s.beat.truncate 32)
  | .TIME_BEAT_HI => some ((s.beat >>> 32).truncate 32)
  | .TIME_BEAT_ERR => some (BitVec.ofInt 32 (s.time.err.tdiv 655360))
  | .TIME_SNAP_STATUS => some (word (on_ 0 s.time.snap.valid + at_ 8 s.time.snap.seq))
  | .TIME_SNAP_CNT_LO => some (loW s.time.snap.cnt)
  | .TIME_SNAP_CNT_HI => some (hiW s.time.snap.cnt)
  | .TIME_SNAP_BEAT_LO => some (s.time.snap.beat.truncate 32)
  | .TIME_SNAP_BEAT_HI => some ((s.time.snap.beat >>> 32).truncate 32)
  | .TIME_SNAP_BOFF => some (word s.time.snap.boff)
  | .TIME_SNAP_DOM_LO => some (loW (s.time.snap.dom.getD i 0))
  | .TIME_SNAP_DOM_HI => some (hiW (s.time.snap.dom.getD i 0))
  | .TIME_DOM_STATUS => some (word ((s.domain i).seq % 256 + on_ 8 (s.domain i).locked))
  | .TIME_DOM_RATE_USED => some (BitVec.ofInt 32 (s.domain i).rate)
  | .TIME_TRIG_STATUS => some (word (s.trigStatus i))
  | .TIME_CAP_STATUS => some (word ((s.cap i).fifo.length + on_ 5 (match (s.cap i).fifo with | [] => false | x :: _ => x.2)))
  | .KLP_ENG_WCET =>
    match (s.engine i).image with
    | none => some 0
    | some g => some (word (g.wcet.getD j 0 % 4096 + at_ 16 (g.maxev.getD j 0 % 256)))
  | _ => none

/-- The ring that a HEAD or TAIL register of a group shows. -/
def State.ringHead (s : State) (r : Nat) : Word := word (s.ring r).head
/-- R382: TAIL shows KNOWN; of an event ring, the index of the next record. -/
def State.ringTail (s : State) (r : Nat) : Word := word (if r < 66 then (s.ring r).known else (s.ring r).evTail)

/-- Reads of the host-interface, cipher, twin, update and recorder blocks that show other state. -/
def liveHost (s : State) (r : Reg) (i : Nat) : Option Word :=
  match r with
  | .HIF_XW_STATUS => some (word (on_ 0 (!s.hif.reclaim.isEmpty) + at_ 16 (min 65535 s.devOwned)))
  | .HIF_VEC_STATUS => some (word (min 65535 (SMap.get ({} : Vec) s.hif.vec i).pending))
  | .HIF_TXR_HEAD => some (s.ringHead i) | .HIF_TXR_TAIL => some (s.ringTail i)
  | .HIF_RXR_HEAD => some (s.ringHead (32 + i)) | .HIF_RXR_TAIL => some (s.ringTail (32 + i))
  | .HIF_CMR_HEAD => some (s.ringHead (64 + i)) | .HIF_CMR_TAIL => some (s.ringTail (64 + i))
  | .HIF_EVR_HEAD => some (s.ringHead (66 + i)) | .HIF_EVR_TAIL => some (s.ringTail (66 + i))
  | .MSIX_PBA => some (word (s.hif.pba / 2 ^ (32 * i)))
  | .WIN_PWE_STATUS => some (setFld (s.reg .WIN_PWE_STATUS) 0 7 s.hif.pwe.length)
  | .WIN_PWE_ENT => some (match s.hif.pwe with | [] => 0 | e :: _ => wd e i)
  | .WIN_SEQ => some (word (s.win i).seq)
  | .WIN_STATUS => some (word ((s.win i).out.length + at_ 8 ((s.win i).wait.length % 64)))
  | .CRY_STATUS =>
    some (word (s.rfld .CRY_STATUS 0 4 + on_ 4 (!s.cry.upd.isEmpty) + on_ 5 s.cry.ok + on_ 6 s.cry.copy))
  | .CRY_STORE_SEQ => some (word s.cry.seq)
  | .CRY_SLOT_STATUS => some (word (s.slot i).word)
  | .TWIN_STATUS =>
    some (word (on_ 0 (s.twin.accepted == some true) + on_ 1 s.twin.accepted.isSome + on_ 2 s.twin.tie + at_ 3 (min 3 s.twin.noclaim) +
      at_ 8 s.twin.a.claim + at_ 16 s.twin.b.claim))
  | .TWIN_HEALTH_A => some (word (s.health false))
  | .TWIN_HEALTH_B => some (word (s.health true))
  | .TWIN_COPY_STATUS => some (word (min 4095 ((recBytes s.twin.exactQ + 31) / 32) + at_ 16 (s.twin.lastWords % 1024)))
  | .TWIN_SAFE_STATUS => some (word (on_ 0 s.twin.safe + at_ 8 s.twin.cause))
  | .TWIN_SAFE_RESULT => some (word s.twin.result)
  | .UPD_STATUS => some (word (s.upd.running + at_ 2 (s.upd.startKind % 8) + on_ 5 s.upd.bootHold))
  | .UPD_STAGE_OWNER => some (word (s.upd.owner + at_ 16 (if s.upd.owner = 2 then s.upd.tester else 0)))
  | .UPD_STAGE_STATUS =>
    some (word (s.upd.stageState + at_ 8 (s.upd.gen % 256) + at_ 16 (if s.upd.owner = 0 then 0 else secs (s.time.cnt - s.upd.lastOp))))
  | .UPD_ACT_STATUS => some (setFld (setFld (s.reg .UPD_ACT_STATUS) 0 4 s.upd.act) 8 8 s.upd.copyBlock)
  | .UPD_CFG_STATUS =>
    some (setFld (s.reg .UPD_CFG_STATUS) 0 2 (match s.upd.cfg with | none => 0 | some q => if q.checked then 2 else 1))
  | .UPD_FP_LO => some (loW s.fpActive) | .UPD_FP_HI => some (hiW s.fpActive)
  | .UPD_FP_PREP_LO => some (loW s.fpPrepared) | .UPD_FP_PREP_HI => some (hiW s.fpPrepared)
  | .UPD_LLDP_OUI => some (Config.oui.zeroExtend 32)
  | .UPD_PEER_AGE =>
    some (if s.rbit .UPD_PEER_MAC_HI 31 i then word (secs (s.time.cnt - (SMap.get ({} : Peer) s.upd.peer i).seen)) else 0)
  | .UPD_RES_OWNER => some (word (SMap.get 0 s.upd.res i))
  | .CHK_STATUS => some (word (s.chkOf i).st)
  | .REC_STATUS => some (word (s.ret.mode.ctorIdx + at_ 2 s.ret.source))
  | .REC_TRIG_TIME_LO => some (loW s.ret.trig) | .REC_TRIG_TIME_HI => some (hiW s.ret.trig)
  | .REC_START_CNT => some (s.reg .KEEP_CTR 30)
  | .REC_TAP_SERIAL_LO => some (word (s.rtap i).serial) | .REC_TAP_SERIAL_HI => some (word ((s.rtap i).serial / 2 ^ 32))
  | .REC_TAP_KEEP_FIRST_LO => some (word (s.rtap i).keepFirst) | .REC_TAP_KEEP_FIRST_HI => some (word ((s.rtap i).keepFirst / 2 ^ 32))
  | .REC_TAP_KEEP_LAST_LO => some (word (s.rtap i).keepLast) | .REC_TAP_KEEP_LAST_HI => some (word ((s.rtap i).keepLast / 2 ^ 32))
  | .REC_TAP_STATUS => some (word (s.tapStatus i))
  | _ => none

/-- A register whose value the state determines without being stored under its address. -/
def State.live (s : State) (r : Reg) (i j : Nat) : Option Word :=
  match liveCore s r i with
  | some w => some w
  | none => match liveEdge s r i j with
    | some w => some w
    | none => liveHost s r i

end Sys2Proof.Machine
end

