-- ==== Sys2Proof/Machine/Access.lean ====
section
/-! DEFINITION. Reads and writes of registers: the access types of R5, the stored forms of written values, what a write of each command
register does, the register fabric with its hung accesses (R498), and the checks of the host interface (R351). -/

namespace Sys2Proof.Machine

/-! ### Writing a value into a register (R5, R6) -/

/-- A field held within bounds. -/
def clampFld (w : Word) (lo n least most : Nat) : Word := setFld w lo n (min most (max least (fld w lo n)))

/-- The form in which a written value is stored: the limits that the field tables give (R58, R130, R165, R176, R230, R292, R324, R348,
R369, R382, R427, R459). -/
def storeAdj (s : State) (r : Reg) (i : Nat) (w : Word) : Word :=
  match r with
  | .PORT_MAC_CFG => clampFld w 0 14 64 9216
  | .PORT_FASTLINK_CFG => clampFld w 4 4 1 15
  | .LKP_STREAM_SWEEP => clampFld w 0 24 125 0xFFFFFF
  | .FW_CT_TMO => clampFld w 0 8 1 255
  | .FW_HOOK_CFG => clampFld w 8 4 1 15
  | .BUF_HOLD_RSV => clampFld w 0 12 36 4095
  | .BUF_Q_CFG => if s.hasPort (i / 8) then w else setFld w 0 16 0
  | .TM_Q_SCHED => clampFld w 0 14 64 16383
  | .TM_GATE_CYCLE => clampFld w 0 16 1 65535
  | .GW_TUN_LEN => clampFld w 0 14 64 2112
  | .GW_LIN_CTRL => clampFld w 8 6 0 32
  | .KLP_ENG_CTRL => if 14 ≤ i then w else setFld w 8 8 0
  | .TIME_DOM_CFG => clampFld w 16 3 0 5
  | .TIME_CAP_CFG => clampFld w 8 8 1 255
  | .HIF_VEC_MOD => clampFld w 0 8 1 255
  | .HIF_TXR_CFG | .HIF_RXR_CFG | .HIF_CMR_CFG | .HIF_EVR_CFG => clampFld w 0 4 6 12
  | .REC_TAP_CFG => clampFld (clampFld w 9 7 1 127) 16 8 1 255
  | .BUG_WAKE_PIN => (List.range 4).foldl (fun w p => clampFld w (8 * p + 2) 6 1 63) w
  | _ => w

/-- The value stored for a write of `w`: writable bits only (R6), within the field limits. -/
def storeForm (s : State) (r : Reg) (i : Nat) (w : Word) : Word := storeAdj s r i (w &&& r.row.mask)

/-- R480: a write to a configuration record goes to the prepared bank; while a commit request is checked or pending it is discarded
and sets WR_FROZEN. The state copy carries it in an exact record of 16 bytes (R241). -/
def prepWrite (s : State) (r : Reg) (i j : Nat) (v : Word) : State :=
  if s.upd.cfg.isSome then s.flag .UPD_EVENT .UPD_IRQ_EN 12
  else { s.planePrep (r.addr i j) v with prep := SMap.put s.prep (r.addr i j) v }

/-- R353: a write to CFG of a ring: SIZE_LOG2 changes only while EN = 0; an event ring that is enabled starts its write-back count
anew. -/
def ringCfgWrite (s : State) (r : Reg) (i base : Nat) (v : Word) : State :=
  let old := s.reg r i
  let s := s.setReg r (if bit old 4 then setFld v 0 4 (fld old 0 4) else v) i
  if base = 66 ∧ bit v 4 ∧ !bit old 4 then s.setRing (66 + i) { s.ring (66 + i) with written := 0 } else s

/-- R353: a write to BASE of a ring while EN = 1 is ignored. -/
def ringBaseWrite (s : State) (r : Reg) (i base : Nat) (v : Word) : State :=
  if bit (s.ringCfg (base + i)) 4 then s else s.setReg r v i

/-- R369: a vector whose mask is cleared while its pending bit is set is sent. -/
def maskWrite (s : State) (v : Nat) (w : Word) : State :=
  let s := s.setReg .MSIX_CTRL w v
  if !bit w 0 && s.hif.pba.testBit v && s.dmaOk then
    { s with hif := { s.hif with pba := maskClr s.hif.pba v } }.put (.msix v)
  else s

/-- R125: a write to TBL_INDEX, TBL_FILTER or TBL_DATA while a command holds BUSY is discarded. -/
def tblRegWrite (s : State) (r : Reg) (i : Nat) (v : Word) : State :=
  if s.tblBusy then s.setRbit .TBL_STATUS 12 true else s.setReg r v i

/-- R328: a host write to a staged value of a domain that belongs to gPTP is discarded. -/
def domRegWrite (s : State) (r : Reg) (d : Nat) (v : Word) : State :=
  if s.rbit .TIME_DOM_CFG 0 d then s.flag .TIME_EVENT .TIME_IRQ_EN 2 else s.setReg r v d

/-- R34, R40: a write to PORT_PLCA_CFG is judged with the port's settings: a port that is up goes down when they no longer hold. -/
def plcaWrite (s : State) (n : Nat) (v : Word) : State :=
  let s := s.setReg .PORT_PLCA_CFG v n
  if !(s.port n).started then s
  else
    let bad := s.cfgBad n
    (if bad then linkFall s n else s).setRbit .PORT_LINK_STATUS 7 bad n

/-- R436: INH outputs follow a new BUG_INH_CFG. -/
def inhCfgWrite (s : State) (v : Word) : State :=
  inhFollow (s.setReg .BUG_INH_CFG v) (if s.bug.power == .doze then 1 else 0)

/-- R486: an expected peer that is stated anew counts as heard now. -/
def expWrite (s : State) (j : Nat) (v : Word) : State :=
  let s := s.setReg .UPD_PEER_EXP_MAC_HI v j
  { s with upd := { s.upd with exp := SMap.set {} s.upd.exp j { seen := s.time.cnt, lost := false } } }

/-- R418, R419: a write to REC_CMD. -/
def recCmdWrite (s : State) (w : Word) : State :=
  let s := if bit w 0 then recTrigger s 1 s.now0 else s
  if bit w 1 then recRearm s else s

/-- A write to a command register or to one whose write has an effect of its own; none for the others. -/
def writeCmd (s : State) (r : Reg) (i : Nat) (w v : Word) : Option State :=
  match r with
  | .CLK_GATE => some (gateWrite s w)
  | .CLK_RST_CMD => some (rstCmdWrite s w)
  | .BUG_SLEEP_CMD => some (sleepCmdWrite s w)
  | .BUG_WAKE_CLR => some (if bit w 0 then wakeClear s else s)
  | .BUG_INH_CFG => some (inhCfgWrite s v)
  | .HIF_KICK => some (txWork (kick s w))
  | .HIF_XW_RECLAIM => some (reclaimReq s w)
  | .HIF_TXR_CMD => some (if bit w 0 then ringReset s i else s)
  | .HIF_RXR_CMD => some (if bit w 0 then ringReset s (32 + i) else s)
  | .HIF_CMR_CMD => some (if bit w 0 then ringReset s (64 + i) else s)
  | .HIF_EVR_CMD => some (if bit w 0 then ringReset s (66 + i) else s)
  | .HIF_TXR_CFG => some (ringCfgWrite s r i 0 v) | .HIF_RXR_CFG => some (ringCfgWrite s r i 32 v)
  | .HIF_CMR_CFG => some (ringCfgWrite s r i 64 v) | .HIF_EVR_CFG => some (ringCfgWrite s r i 66 v)
  | .HIF_TXR_BASE_LO | .HIF_TXR_BASE_HI => some (ringBaseWrite s r i 0 v)
  | .HIF_RXR_BASE_LO | .HIF_RXR_BASE_HI => some (ringBaseWrite s r i 32 v)
  | .HIF_CMR_BASE_LO | .HIF_CMR_BASE_HI => some (ringBaseWrite s r i 64 v)
  | .HIF_EVR_BASE_LO | .HIF_EVR_BASE_HI => some (ringBaseWrite s r i 66 v)
  | .MSIX_CTRL => some (maskWrite s i v)
  | .WIN_PWE_POP => some (if bit w 0 then { s with hif := { s.hif with pwe := s.hif.pwe.drop 1 } } else s)
  | .PORT_CTRL => some (portCtrlWrite s i w)
  | .PORT_FASTLINK_CTRL => some (if bit w 0 then portForget s i else s)
  | .PORT_PLCA_CFG => some (plcaWrite s i v)
  | .LKP_FDB_CTRL => some (if bit w 0 then s.setAct { s.act with blocked := [] } else s)
  | .TBL_CMD => some (tblCmdWrite s w)
  | .TBL_INDEX | .TBL_FILTER | .TBL_DATA => some (tblRegWrite s r i v)
  | .FW_CT_CMD => some (if bit w 0 then flushOrDefer s 24 else s)
  | .BUF_CMD => some (if bit w 0 && s.audit == 0 then { s with audit := 128 } else s)
  | .GW_CAN_CTRL => some (canCtrlWrite s i w)
  | .GW_CAN_CMD => some (let s := if bit w 0 then canRecover s i else s; if bit w 1 then canFlush s i else s)
  | .GW_LIN_CTRL => some (linCtrlWrite s i w)
  | .KLP_LOAD_CMD => some (loadCmdWrite s w none)
  | .KLP_ENG_CMD => some (if bit w 0 then restartReq s i else s)
  | .KLP_MBOX_IN => some (mboxIn s i w)
  | .TIME_SNAP_CMD => some (if bit w 0 then timeTake s else s)
  | .TIME_DOM_RATE | .TIME_DOM_ADJ_LO | .TIME_DOM_ADJ_HI | .TIME_DOM_SET_LO | .TIME_DOM_SET_HI => some (domRegWrite s r i v)
  | .TIME_DOM_CMD => some (domCmdWrite s i w)
  | .TWIN_CMD => some (if bit w 0 then requestSwap s else s)
  | .TWIN_SAFE_CTRL => some (safeCtrlWrite s w)
  | .UPD_CFG_CMD => some (cfgCmdWrite s w)
  | .UPD_PEER_EXP_MAC_HI => some (expWrite s i v)
  | .REC_CMD => some (recCmdWrite s w)
  | .TEL_SNAP_CMD => some (snapCmd s w)
  | _ => none

/-- R5: what a write does by access type. -/
def writePlain (s : State) (r : Reg) (i j : Nat) (w v : Word) : State :=
  match r.row.acc with
  | .ro | .wo | .rc => s
  | .w1c => s.setReg r (s.reg r i j &&& ~~~(w &&& r.row.mask)) i j
  | .w1s => s.setReg r (s.reg r i j ||| (w &&& r.row.mask)) i j
  | .rw | .rwk | .rwl => if r.row.cfg then prepWrite s r i j v else s.setReg r v i j

/-- A write that reaches a register. -/
def regWrite (s : State) (r : Reg) (i j : Nat) (w : Word) : State :=
  if s.partLacks r i || classLacks r i then s
  else if cryReg r then saRegWrite s r i j w
  else
    let v := storeForm s r i w
    match writeCmd s r i w v with
    | some s' => s'
    | none => writePlain s r i j w v

/-! ### Reading a register (R5) -/

/-- R224: the value of a read-clear register, which is then 0. -/
def rcRead (s : State) (r : Reg) (i : Nat) : Word × State := (s.reg r i, s.setReg r 0 i)

/-- R342, R525: the GPIO lands that TRIG channels drive, with their levels. -/
def State.trigLands (s : State) : Word × Word :=
  (List.range 16).foldl (fun m t =>
    if s.rbit .TIME_TRIG_CFG 0 t && s.rbit .TIME_TRIG_CFG 5 t then (setBit m.1 t true, setBit m.2 t (s.trigLevel t)) else m) (0, 0)

/-- R459: BUG_VBAT, and R342, R525 GLB_GPIO_IN: a land that a TRIG channel or GLB_GPIO_OE drives reads its level; other levels are the
outside's. -/
def pinRead (s : State) (r : Reg) : Word × State :=
  let x := s.fresh
  match r with
  | .GLB_GPIO_IN =>
    let t := s.trigLands
    let oe := match s.gpioHold with | some h => h.1 | none => s.reg .GLB_GPIO_OE
    let o := match s.gpioHold with | some h => h.2 | none => s.reg .GLB_GPIO_OUT
    ((t.2 ||| (((o &&& oe) ||| (x.1 &&& ~~~oe)) &&& ~~~t.1)) &&& 0xFFFF, x.2)
  | _ => (x.1 &&& 0xFFF, x.2)

/-- R382: HIF_STATUS; what the PCIe link has settled on is the link partner's (free value). -/
def hifStatus (s : State) : Word × State :=
  let x := s.fresh
  let up := s.clk.pcieRef && !s.hif.perst
  (word ((if up then fld x.1 0 1 + at_ 1 (fld x.1 1 2 % 3) + at_ 3 (fld x.1 3 1) else 0) + on_ 4 s.hif.bme + on_ 5 s.hif.poll), x.2)

/-- A read that reaches a register. A configuration record reads its prepared value (R482), a write-only register 0. -/
def regRead (s : State) (r : Reg) (i j : Nat) : Word × State :=
  if s.partLacks r i || classLacks r i then (0, s)
  else match r with
    | .TIME_CNT_LO => timeCntLo s
    | .TIME_CAP_FIFO_LO => capLo s i
    | .TIME_CAP_FIFO_HI => capHi s i
    | .TM_Q_MAX_DEPTH => rcRead s r i
    | .TM_Q_MAX_DELAY => rcRead s r i
    | .KLP_ENG_MAX_BUSY => rcRead s r i
    | .GLB_GPIO_IN => pinRead s r
    | .BUG_VBAT => pinRead s r
    | .HIF_STATUS => hifStatus s
    | .BUF_DBG_DESC => dbgDesc s i
    | .WIN_FENCE => ((s.win i).fenceWord, s.setWin i { s.win i with fails := 0 })
    | _ => match s.live r i j with
      | some w => (w, s)
      | none => match r.row.acc with
        | .wo => (0, s)
        | _ => (if r.row.cfg then s.preg r i j else s.reg r i j, s)

/-! ### The register fabric (R489, R498, R521, R522) -/

/-- Is an address one of a counter word (R513, R521). -/
def counterAddr (a : Nat) : Bool := decide (0xF00000 ≤ a) && decide (a < 0x1000000) && isCounter (a - 0xF00000)

/-- A write served by the fabric; reserved offsets take nothing. -/
def busPut (s : State) (a : Nat) (w : Word) : State :=
  match Reg.at? (keepAlias a) with
  | some (r, i, j) => regWrite s r i j w
  | none => s

/-- A read served by the fabric; reserved offsets read 0. -/
def busGet (s : State) (a : Nat) : Word × State :=
  if counterAddr a then counterRead s (a - 0xF00000)
  else match Reg.at? (keepAlias a) with
    | some (r, i, j) => regRead s r i j
    | none => (0, s)

/-- R498: hung accesses whose clock runs again complete, oldest first. -/
def hungRelease (s : State) : State :=
  let go := s.clk.hung.filter (fun x => !s.stopped x.1)
  let s := { s with clk := { s.clk with hung := s.clk.hung.filter (fun x => s.stopped x.1) } }
  go.foldl (fun s x => match x.2.1 with
    | some w => busPut s x.1 w
    | none => let y := busGet s x.1; y.2.put (.read y.1)) s

/-- A write served by the fabric, with what a restarted clock lets complete. -/
def busStore (s : State) (a : Nat) (w : Word) : State :=
  let s := busPut s a w
  if a = 0x10000 then hungRelease s else s

/-! ### The checks of the host interface (R350, R351) -/

/-- R351: is a request one whole aligned DW. -/
def wholeDw (a : Nat) (be : BitVec 4) (dws : Nat) : Bool := decide (a % 4 = 0) && be == 0xF && decide (dws = 1)

/-- R522: is an offset reserved. -/
def reserved (a : Nat) : Bool := !counterAddr a && (Reg.at? (keepAlias a)).isNone

/-- R4: an offset of a register that the part lacks. -/
def State.lacks (s : State) (a : Nat) : Bool :=
  match Reg.at? (keepAlias a) with
  | some (r, i, _) => s.partLacks r i
  | none => false

/-- R5, R524: a register that LOCK has made read-only. -/
def State.locked (s : State) (a : Nat) : Bool :=
  s.rbit .GLB_LOCK 0 &&
    (match Reg.at? a with
     | some (r, _, _) => r.row.acc == .rwl
     | none => false)

/-- R351: the cause for which a BAR0 write is refused; `some 0` = discarded without an entry. -/
def State.writeRefusal (s : State) (a : Nat) (be : BitVec 4) (dws : Nat) : Option Nat :=
  if !wholeDw a be dws then some 5
  else if reserved a then some 2
  else if s.lacks a then some 0
  else if s.stopped a then some 3
  else if s.locked a then some 4
  else none

/-- R351: a BAR0 write from source `src` of the log (15 = BAR0, else a LOCAL window): HIF_BAR0_SEQ counts it; it is served, or
discarded and logged. Answers the cause of a refusal that is logged. -/
def hostWrite (s : State) (src a : Nat) (be : BitVec 4) (dws : Nat) (w : Word) : Option Nat × State :=
  let s := seqStep s
  let seq := (s.reg .HIF_BAR0_SEQ).toNat
  match s.writeRefusal a be dws with
  | none => (none, busStore s a w)
  | some 0 => (none, s)
  | some c => (some c, if src = 15 then pweLog s 15 a seq c else winFail s src a seq c)

/-- R351: a read that fails returns all ones and sets BAD_READ. -/
def badRead (s : State) (a : Nat) : Word × State :=
  (0xFFFFFFFF, (s.setReg .HIF_BAD_READ_ADDR (word a)).flag .HIF_EVENT .HIF_IRQ_EN 3)

/-- R351: the cause for which a BAR0 read fails. -/
def State.readRefusal (s : State) (a : Nat) (be : BitVec 4) (dws : Nat) : Option Nat :=
  if !wholeDw a be dws then some 5
  else if reserved a || s.lacks a then none
  else if s.stopped a then some 3
  else none

/-- R351: a BAR0 read. -/
def hostRead (s : State) (a : Nat) (be : BitVec 4) (dws : Nat) : Word × State :=
  match s.readRefusal a be dws with
  | some _ => badRead s a
  | none => busGet s a

/-- REGISTER_WRITE (R351). -/
def execRegisterWrite (acc : BusWrite) (s : State) : Ans :=
  fromHost s (fun s => (hostWrite s 15 acc.addr.toNat acc.be acc.dws acc.data).2)

/-- SA_WRITE (R393): a BAR0 write to an SA register. -/
def execSaWrite (acc : BusWrite) (s : State) : Ans :=
  fromHost s (fun s => (hostWrite s 15 acc.addr.toNat acc.be acc.dws acc.data).2)

/-- A BAR0 read of the host: WIN_FENCE is held outside the fabric (R378). -/
def hostLoad (s : State) (a : Nat) (be : BitVec 4) (dws : Nat) : State :=
  match s.readRefusal a be dws, Reg.at? a with
  | none, some (.WIN_FENCE, w, _) => fenceRead s w none
  | _, _ => let x := hostRead s a be dws; x.2.put (.read x.1)

/-- RC_REGISTER_READ (R224, R351): a BAR0 read. -/
def execRcRegisterRead (acc : BusRead) (s : State) : Ans := fromHost s (fun s => hostLoad s acc.addr.toNat acc.be acc.dws)

/-- COUNTER_LOW_READ (R511): a BAR0 read of a counter word at a TEL offset. -/
def execCounterLowRead (off : BitVec 20) (s : State) : Ans := fromHost s (fun s => hostLoad s (0xF00000 + off.toNat) 0xF 1)

/-- GLB_LOCK (R524): 1 is written to LOCK. -/
def execGlbLock (s : State) : Ans := onBar0 s .GLB_LOCK 0 (fun s => s.setRbit .GLB_LOCK 0 true)

/-! ### The debug port and hung accesses (R497, R498) -/

/-- DEBUG_ACCESS (R498): the fabric holds four hung accesses; a further one waits. After GLB_LOCK is set the debug port answers
boundary-scan instructions only (R541). -/
def execDebugAccess (wr : Bool) (addr : BitVec 26) (w : Word) (s : State) : Ans :=
  onDie s (fun s =>
    let a := addr.toNat
    if s.rbit .GLB_LOCK 0 then s
    else if 4 ≤ s.clk.hung.length then s.put .waits
    else if s.stopped a && !s.lacks a then
      { s with clk := { s.clk with hung := s.clk.hung ++ [(a, if wr then some w else none, s.time.cnt)] } }
    else if wr then busStore s a w
    else let x := busGet s a; x.2.put (.read x.1))

/-- HANG (R498): an access has hung for 1 ms: a listed one, or one of Shepherd's, which is listed now. -/
def execHang (addr : BitVec 26) (s : State) : Ans :=
  onDie s (fun s =>
    let a := addr.toNat
    let due := s.clk.hung.any (fun x => x.1 == a && decide (312500 ≤ (s.time.cnt - x.2.2).toNat))
    if due then s.flag .CLK_EVENT .CLK_IRQ_EN 5
    else if s.clk.hung.any (fun x => x.1 == a) || !s.stopped a || decide (4 ≤ s.clk.hung.length) then s
    else
      let s := { s with clk := { s.clk with hung := s.clk.hung ++ [(a, none, s.time.cnt - 312500)] } }
      s.flag .CLK_EVENT .CLK_IRQ_EN 5)

/-- CLOCK_START (R497): the bits of `w` are cleared in CLK_GATE. -/
def execClockStart (w : Word) (s : State) : Ans :=
  onBar0 s .CLK_GATE 0 (fun s => hungRelease (gateWrite s (s.reg .CLK_GATE &&& ~~~w)))

end Sys2Proof.Machine
end

