-- ==== Sys2Proof/Machine/Window.lean ====
section
/-! DEFINITION. BAR4 windows: requests to a peer, LOCAL accesses, the Ezsyn protocol on both sides, fences and timeouts (R373 to R381). -/

namespace Sys2Proof.Machine

/-! ### Frames (R374) -/

/-- A MAC address held in a LO and a HI register, as wire bytes. -/
def State.macOf (s : State) (lo hi : Reg) (i : Nat := 0) : List Byte := beBytes ((s.reg lo i).toNat + 2 ^ 32 * s.rfld hi 0 16 i) 6

/-- R374: an Ezsyn frame. -/
def State.ezFrame (s : State) (dmac : List Byte) (pcp vid type len seq addr win cause : Nat) (payload : List Byte) : List Byte :=
  padFrame (dmac ++ s.macOf .WIN_SRC_MAC_LO .WIN_SRC_MAC_HI ++ beBytes 0x8100 2 ++ beBytes (pcp * 8192 + vid) 2 ++
    beBytes (s.rfld .WIN_CTRL 0 16) 2 ++ [BitVec.ofNat 8 (16 + type), 0] ++ beBytes len 2 ++ beBytes seq 4 ++ beBytes addr 4 ++
    [BitVec.ofNat 8 win, BitVec.ofNat 8 cause, 0, 0] ++ payload)

/-! ### Sending requests (R375, R381) -/

/-- The frame of a request of window `w`. -/
def State.reqFrame (s : State) (w : Nat) (q : WinReq) : List Byte :=
  s.ezFrame (s.macOf .WIN_PEER_MAC_LO .WIN_PEER_MAC_HI w) (s.rfld .WIN_CFG 4 3 w) (s.rfld .WIN_CFG 16 12 w)
    (if q.write then 1 else 2) q.len q.seq q.addr w 0 q.payload

/-- R375, R381: the requests of window `w` that wait are sent in order while at most 16 are outstanding and P23 has room; in the safe
state they end as NOT_SENT. -/
def winSend (w : Nat) : Nat → State → State
  | 0, s => s
  | n + 1, s =>
    match (s.win w).wait with
    | [] => s
    | q :: l =>
      if s.twin.safe then winSend w n (winEnd s w q (some (7, q.addr)))
      else
        let f := s.reqFrame w q
        if 16 ≤ (s.win w).out.length ∨ !s.svcRoom f then s
        else
          let tok := s.nextFrame + 1
          let s := s.setWin w { s.win w with wait := l, out := (s.win w).out ++ [{ q with sent := s.time.cnt, tok }] }
          winSend w n (svcEnter s tok f)

/-- Everything of the window unit that waits for P23 or for a request slot goes on. -/
def winPump (s : State) : State :=
  answersOut s.hif.answers.length ((List.range 8).foldl (fun s w => winSend w (s.win w).wait.length s) s)

/-- Requests that wait in the inbound buffer (R380). -/
def State.winWaiting (s : State) : Nat := (List.range 8).foldl (fun a w => a + (s.win w).wait.length) 0

/-! ### Byte lanes (R376) -/

/-- The target BAR0 address of an access. -/
def State.winTarget (s : State) (a : WinAccess) : Nat := (s.reg .WIN_BASE a.w).toNat + a.off.toNat

/-- R376: lane `l` of target DW `d` (in DWs from the window's start): the host byte that reaches it, if the access has it enabled. -/
def laneByte (a : WinAccess) (swap : Bool) (d l : Nat) : Option Byte :=
  let x := 4 * d + (if swap then 3 - l else l)
  if x < a.off.toNat then none
  else match a.bytes[x - a.off.toNat]? with
    | some (b, true) => some b
    | _ => none

/-- The target DWs that an access of `n` bytes touches, ascending. -/
def touched (off n : Nat) : List Nat :=
  if n = 0 then [] else (List.range ((off + n - 1) / 4 - off / 4 + 1)).map (· + off / 4)

/-- R376: one target DW of a write: its byte enables and its bytes. -/
def laneDw (a : WinAccess) (swap : Bool) (d : Nat) : BitVec 4 × List Byte :=
  let ls := (List.range 4).map (laneByte a swap d)
  ((List.range 4).foldl (fun m l => if ((ls.getD l none)).isSome then m ||| (1#4 <<< l) else m) 0#4, ls.map (·.getD 0))

/-! ### Host accesses to windows (R373, R375, R377) -/

/-- R373: a write through a LOCAL window: one BAR0 write for each DW. -/
def localWrite (s : State) (a : WinAccess) : State :=
  let swap := s.rbit .WIN_CFG 1 a.w
  (touched a.off.toNat a.bytes.length).foldl (fun s d =>
    let x := laneDw a swap d
    let addr := (s.reg .WIN_BASE a.w).toNat + 4 * d
    if 2 ^ 26 ≤ addr then winFail s a.w addr (s.win a.w).seq 2
    else (hostWrite s a.w addr x.1 1 (leWord x.2 0)).2) s

/-- The next WIN_SEQ of window `w` is taken. -/
def nextSeq (s : State) (w : Nat) : Nat × State :=
  let q := ((s.win w).seq + 1) % 2 ^ 32
  (q, s.setWin w { s.win w with seq := q })

/-- R373, R375: the first target DW of a write to a peer window that cannot be sent, with its address and cause. -/
def State.peerBad (s : State) (a : WinAccess) : Option (Nat × Nat) :=
  let base := (s.reg .WIN_BASE a.w).toNat
  if a.bytes.isEmpty then some (s.winTarget a, 5)
  else (touched a.off.toNat a.bytes.length).findSome? (fun d =>
    if 2 ^ 26 ≤ base + 4 * d then some (base + 4 * d, 2)
    else if (laneDw a (s.rbit .WIN_CFG 1 a.w) d).1 != 0xF#4 then some (base + 4 * d, 5) else none)

/-- R375: a write to a peer window. -/
def peerWrite (s : State) (a : WinAccess) : State :=
  let x := nextSeq s a.w
  let s := x.2
  match s.peerBad a with
  | some (addr, c) => winFail s a.w addr x.1 c
  | none =>
    let addr := s.winTarget a
    if s.twin.safe then winFail s a.w addr x.1 7
    else
      let payload := (touched a.off.toNat a.bytes.length).flatMap (fun d => (laneDw a (s.rbit .WIN_CFG 1 a.w) d).2)
      let q : WinReq := { seq := x.1, write := true, addr, len := payload.length, payload, sent := s.time.cnt }
      winPump (s.setWin a.w { s.win a.w with wait := (s.win a.w).wait ++ [q] })

/-- A host write to a window. -/
def winWrite (s : State) (a : WinAccess) : State :=
  if !s.rbit .WIN_CFG 0 a.w then winFail s a.w (s.winTarget a) (s.win a.w).seq 8
  else if s.rbit .WIN_CFG 2 a.w then localWrite s a
  else if 64 ≤ s.winWaiting then s.put .waits
  else peerWrite s a

/-- R351, R373: one DW of a LOCAL read: its word, and the cause for which it fails. -/
def localDw (s : State) (addr : Nat) (whole : Bool) : (Word × Option Nat) × State :=
  let be : BitVec 4 := if whole then 0xF else 0
  let c := if 2 ^ 26 ≤ addr then some 2 else s.readRefusal addr be 1
  let y := if c.isSome then badRead s addr else busGet s addr
  ((y.1, c), y.2)

/-- R378: is a DW of a LOCAL read a read of WIN_FENCE that is served. -/
def State.fenceAt (s : State) (addr : Nat) (whole : Bool) : Option Nat :=
  if addr < 2 ^ 26 ∧ s.readRefusal addr (if whole then 0xF else 0) 1 = none then
    match Reg.at? addr with
    | some (.WIN_FENCE, w, _) => some w
    | _ => none
  else none

/-- R373, R377: a read through a LOCAL window: one BAR0 read for each DW; the read fails with its first failing DW. A DW that the access
touches in part is not whole. Of a read that holds WIN_FENCE the other DWs are read at once, and it completes with the fence (R378). -/
def localRead (s : State) (a : WinAccess) : State :=
  let off := a.off.toNat
  let base := (s.reg .WIN_BASE a.w).toNat
  let swap := s.rbit .WIN_CFG 1 a.w
  let whole := fun d => decide (off ≤ 4 * d ∧ 4 * d + 4 ≤ off + a.len)
  let ds := touched off a.len
  let held := ds.find? (fun d => (s.fenceAt (base + 4 * d) (whole d)).isSome)
  let part := fun (x : (List Byte × Option (Nat × Nat)) × State) (d : Nat) =>
    let y := localDw x.2 (base + 4 * d) (whole d)
    ((x.1.1 ++ leBytes y.1.1.toNat 4, x.1.2.or (y.1.2.map (fun c => (base + 4 * d, c)))), y.2)
  match held with
  | none =>
    let x := ds.foldl part (([], none), s)
    localEnd x.2 a.w off a.len swap x.1.1 x.1.2
  | some f =>
    let x := (ds.filter (fun d => decide (d < f))).foldl part (([], none), s)
    let y := (ds.filter (fun d => decide (f < d))).foldl part (([], x.1.2), x.2)
    fenceRead y.2 ((s.fenceAt (base + 4 * f) (whole f)).getD 0)
      (some { w := a.w, off, len := a.len, swap, pre := x.1.1, post := y.1.1, fail := y.1.2 })

/-- R375, R377: a read of a peer window: a READ of the whole DWs that it touches. -/
def peerRead (s : State) (a : WinAccess) : State :=
  let addr := s.winTarget a
  let x := nextSeq s a.w
  let s := x.2
  if 2 ^ 26 < addr + a.len ∨ 2 ^ 26 ≤ addr then winRdFail s a.w addr 2
  else if s.twin.safe then winRdFail s a.w addr 7
  else
    let q : WinReq := { seq := x.1, write := false, addr := addr / 4 * 4, len := 4 * (touched a.off.toNat a.len).length, payload := [],
                        sent := s.time.cnt, want := (a.off.toNat, a.len) }
    winPump (s.setWin a.w { s.win a.w with wait := (s.win a.w).wait ++ [q] })

/-- A host read of a window. A read of more than 64 bytes fails with a cause that the manual does not name (log entry 1). -/
def winRead (s : State) (a : WinAccess) : State :=
  if !s.rbit .WIN_CFG 0 a.w then (s.put (.read 0xFFFFFFFF)).flag .WIN_EVENT .WIN_IRQ_EN 10
  else if 64 < a.len then let x := s.fresh; winRdFail x.2 a.w (s.winTarget a) (fld x.1 0 4)
  else if s.rbit .WIN_CFG 2 a.w then localRead s a
  else if 64 ≤ s.winWaiting then s.put .waits
  else peerRead s a

/-- WIN_WRITE (R375). -/
def execWinWrite (acc : WinAccess) (s : State) : Ans := fromHost s (fun s => winWrite s acc)

/-- WIN_READ (R377). -/
def execWinRead (acc : WinAccess) (s : State) : Ans := fromHost s (fun s => winRead s acc)

/-- LOCAL_WINDOW_ACCESS (R373): an access to a window, served here where the window is LOCAL. -/
def execLocalWindowAccess (wr : Bool) (acc : WinAccess) (s : State) : Ans :=
  fromHost s (fun s => if wr then winWrite s acc else winRead s acc)

/-! ### Answers to this device's requests (R375, R377, R378) -/

/-- R374: does a response answer a request of the kind. -/
def ezAnswers (k : EzKind) (write : Bool) : Bool :=
  match k with
  | .ack => write
  | .readData => !write
  | .nack => true

/-- R375: a response ends the request that it names; one that names none is counted WIN_STRAY. -/
def ezResponse (s : State) (x : EzResp) : State :=
  match (s.win x.win).out.find? (fun q => q.seq == x.seq.toNat && ezAnswers x.kind q.write) with
  | none => s.bump (.device .WIN_STRAY)
  | some q =>
    let s := match x.kind with
      | .nack => winEnd s x.win q (some (x.cause.toNat, x.addr.toNat))
      | .ack => winEnd s x.win q none
      | .readData =>
        let data := laneRead q.want.1 q.want.2 (s.rbit .WIN_CFG 1 x.win) x.payload
        winEnd (s.put (.readBytes x.win data)) x.win q none
    winPump s

/-- EZSYN_RESPONSE (R375). -/
def execEzsynResponse (rs : EzResp) (s : State) : Ans := onDie s (fun s => ezResponse s rs)

/-- R378: 2 ms in steps of the counter. -/
def winLimit : Nat := 625000

/-- WIN_TIMEOUT (R377, R378): the oldest request of a window that has had no answer for 2 ms ends as TIMEOUT. -/
def execWinTimeout (w : Fin 8) (s : State) : Ans :=
  onDie s (fun s =>
    match (s.win w).out.find? (fun q => decide (winLimit ≤ (s.time.cnt - q.sent).toNat)) with
    | some q => winPump (winEnd s w q (some (1, q.addr)))
    | none => s)

/-- WIN_FENCE_READ (R378). -/
def execWinFenceRead (w : Fin 8) (s : State) : Ans := fromHost s (fun s => fenceRead s w none)

/-- WIN_PWE_POP (R379): 1 is written to POP. -/
def execWinPwePop (s : State) : Ans :=
  onBar0 s .WIN_PWE_POP 0 (fun s => { s with hif := { s.hif with pwe := s.hif.pwe.drop 1 } })

/-! ### Requests of peers (R374, R375) -/

/-- R375: the accept entry that a source matches. -/
def State.acceptOf (s : State) (smac vid : Nat) : Option Nat :=
  (List.range 8).find? (fun a => s.rbit .WIN_ACCEPT_HI 31 a && s.rfld .WIN_ACCEPT_HI 16 12 a == vid &&
    (s.reg .WIN_ACCEPT_LO a).toNat + 2 ^ 32 * s.rfld .WIN_ACCEPT_HI 0 16 a == smac)

/-- R375: request slots of an accept entry in use: answers not yet on their way. -/
def State.slotsUsed (s : State) (a : Nat) : Nat := (s.hif.answers.filter (fun x => x.entry == a)).length

/-- An answer to a request joins those that wait. -/
def ezAnswer (s : State) (slot : Nat) (rq : EzReq) (type len addr cause : Nat) (payload : List Byte) : State :=
  let f := s.ezFrame (beBytes rq.smac.toNat 6) (s.rfld .WIN_CTRL 16 3) rq.vid.toNat type len rq.seq.toNat addr rq.win.toNat cause payload
  winPump { s with hif := { s.hif with answers := s.hif.answers ++ [{ entry := slot, bytes := f }] } }

/-- R375: each word of a WRITE is applied as a BAR0 write under R351, in address order; the first failing address and its cause. -/
def ezApply (s : State) (addr : Nat) (payload : List Byte) : Option (Nat × Nat) × State :=
  (List.range ((payload.length + 3) / 4)).foldl (fun x k =>
    let a := addr + 4 * k
    let y := hostWrite x.2 15 a (if 4 * k + 4 ≤ payload.length then 0xF else 0) 1 (leWord payload (4 * k))
    (match x.1, y.1 with
     | none, some c => some (a, c)
     | o, _ => o, y.2)) (none, s)

/-- The words of a READ, or the first failing address and its cause. -/
def ezFetch (s : State) (addr len : Nat) : (Nat × Nat) ⊕ List Byte × State :=
  let ks := List.range ((len + 3) / 4)
  match ks.find? (fun k => (s.readRefusal (addr + 4 * k) 0xF 1).isSome) with
  | some k => .inl (addr + 4 * k, (s.readRefusal (addr + 4 * k) 0xF 1).getD 0)
  | none =>
    let x := ks.foldl (fun (x : List Byte × State) k =>
      let y := busGet x.2 (addr + 4 * k)
      (x.1 ++ leBytes y.1.toNat 4, y.2)) ([], s)
    .inr (x.1.take len, x.2)

/-- R375: Shepherd judges a request, serves it and answers. -/
def ezRequest (s : State) (rq : EzReq) : State :=
  match s.acceptOf rq.smac.toNat rq.vid.toNat with
  | none => ezAnswer s 8 rq 5 0 rq.addr.toNat 6 []
  | some a =>
    if 16 ≤ s.slotsUsed a then ezAnswer s 8 rq 5 0 rq.addr.toNat 9 []
    else if rq.write then
      let x := ezApply s rq.addr.toNat rq.payload
      match x.1 with
      | some (f, c) => ezAnswer x.2 a rq 5 0 f c []
      | none => ezAnswer x.2 a rq 3 0 rq.addr.toNat 0 []
    else match ezFetch s rq.addr.toNat rq.len with
      | .inl (f, c) => ezAnswer s a rq 5 0 f c []
      | .inr (d, s) => ezAnswer s a rq 4 d.length rq.addr.toNat 0 d

/-- EZSYN_REQUEST (R375): received while Shepherd runs; in the safe state P23 hands it nothing (R255). -/
def execEzsynRequest (rq : EzReq) (s : State) : Ans :=
  onDie s (fun s => if s.clk.shepDown || s.twin.safe then s else ezRequest s rq)

end Sys2Proof.Machine
end

