-- ==== Sys2Proof/Machine/Boundary.lean ====
section
/-! DEFINITION. The beat boundary: the work of R20 in its order, with the boundary work that other chapters name (R17, R22, R23, R92, R160,
R192, R196, R200, R208, R224, R402). -/

namespace Sys2Proof.Machine

/-! ### Meters (R196, R200) -/

/-- The meters that a refill can change: those with a listed rate or size, or with a bucket that is not 0. -/
def State.meterIdx (s : State) : List Nat :=
  (((SMap.keys s.regs).filter (fun a => decide (0x620000 ≤ a ∧ a < 0x624000))).map (fun a => (a - 0x620000) / 16) ++
    SMap.keys (s.act.ents .meter)).eraseDups

/-- R196: one meter is refilled. -/
def meterRefill (s : State) (m : Nat) : State :=
  let e := s.tget .meter m
  let tc := min ((wd e 0).toNat + s.rfld .TM_POL_CIR 0 24 m) (s.rfld .TM_POL_CBS 0 20 m * 256)
  let tp := min ((wd e 1).toNat + s.rfld .TM_POL_PIR 0 24 m) (s.rfld .TM_POL_PBS 0 20 m * 256)
  s.setAct (s.act.wr (Space.meter.key m) [BitVec.ofNat 32 tc, BitVec.ofNat 32 tp])

/-- Step 3 of R20: the checkpoint of the bucket states at the end of the last beat, then the refill (R196, R200). With no ACTIVE plane the
meters rest. -/
def meterStep3 (s : State) : State :=
  if s.actId.isSome then
    let c := s.act.ents .meter
    let s := s.meterIdx.foldl meterRefill s
    { s with twin := { s.twin with ckpt := c, refilled := s.act.ents .meter } }
  else s

/-! ### Gates (R206, R208) -/

/-- R208, R340: does a pending list take over at this boundary: its beat has come, or the resynchronisation has passed over it. -/
def State.takesOver (s : State) (g : GateList) : Bool :=
  (match s.time.jumped with
   | some n => passed (takeoverBeat g (n + 1)) s.beat
   | none => false) || takeoverBeat g s.beat == s.beat

/-- Step 5 of R20 on one port: a pending list takes over, or a cycle that is due starts from entry 0. -/
def gateStep5 (s : State) (n : Nat) : State :=
  let p := s.port n
  let due := p.gate.en && passed p.cycleEnd s.beat
  match p.gatePend with
  | some g =>
    if s.takesOver g then gateStart ((accruePort s n).updPort n (fun p => { p with gate := g, gatePend := none })) n s.beat
    else if due then gateStart s n p.cycleEnd else s
  | none => if due then gateStart s n p.cycleEnd else s

/-! ### The maintenance slice (R92, R94, R150, R192) -/

/-- R192: one beat of the buffer audit: 256 cells; the cells of unreachable copies are free again. -/
def auditSlice (s : State) : State :=
  if s.audit = 0 then s
  else
    let k := 128 - s.audit
    { s with audit := s.audit - 1, copies := s.copies.filter (fun c => !(c.phase == .lost && c.cell / 256 == k)) }

/-- Step 9 of R20: the slice begins with the command in TBL_CMD (R125) and the batches in progress; the other shares follow the commands of
the beat (`sliceClose`). -/
def slice9 (s : State) : State := batchSlice (if s.twin.cmdWait then tblCmdRun s else s)

/-! ### The boundary -/

/-- The per-beat limits and marks start anew. -/
def beatMarks (s : State) : State :=
  { s with
    lim := {}
    queues := SMap.mapv {} (fun q => { q with recOff := false }) s.queues
    ports := SMap.mapv {} (fun p => { p with pdRecs := 0 }) s.ports
    gw := { s.gw with authRec := 0, lin := SMap.mapv {} (fun l => { l with errBeat := false }) s.gw.lin }
    twin := { s.twin with windowDone := false, wrCmds := 0, wrCycles := [], sliceEnd := false } }

/-- What closes the beat that ends, where no command of their own has done it: the program runs, the maintenance slice and the copy window,
after which the table commands complete whose records the standby holds (R125). -/
def beatClose (s : State) : State := windowClose (kelpieRunEnd s)

/-- R161: in each of the 8 beats after a commit 256 rules of the new active bank are copied into the prepared one. -/
def ruleStep (s : State) : State :=
  if s.ruleCopy = 0 then s
  else { rulesChunk s (8 - s.ruleCopy) with ruleCopy := s.ruleCopy - 1 }

/-- R185, R187: ports whose flush is due and ports still HELD at the end of their hold become DOWN. -/
def dueFlushes (s : State) : State :=
  (List.range 22).foldl (fun s n => if (s.port n).flushDue || s.holdOver n then portFlush s n else s) s

/-- Steps 1 to 4 of R20, from the beat's beginning, with the planes' claims and the ports that go down. What the planes found in the beat
that ended is counted in it, so ahead of the snapshot. -/
def boundaryFirst (s : State) (rep : BoundaryReport) : State :=
  let s := snapStep (planeCounts (planeCounts s false rep.ceA rep.uceA) true rep.ceB rep.uceB)
  let act := s.upd.act
  let s := actSwaps (twinBoundary (beatMarks s) rep) act
  keySwaps (dueFlushes (commitStep (ruleStep (meterStep3 s))))

/-- Steps 5 to 7 of R20. -/
def boundaryRuns (s : State) : State :=
  let s := boundaryHeads ((List.range 22).foldl gateStep5 s)
  issuePoll (abandonPoll (kelpieRunStart s))

/-- Step 8 of R20: completions, the `k` event records of the beat that ended, interrupts; then ring resets, reclaims and what the rings and
the recorder still have to do in host memory. -/
def boundaryHost (s : State) (k : Nat) (flags : List (Nat × Byte)) : State :=
  let s := completions (flagsSeen s flags)
  let new := s.hif.evNew.drop k
  let s := writeEvents { s with hif := { s.hif with evNew := s.hif.evNew.take k } }
  let s := interrupts { s with hif := { s.hif with evNew := s.hif.evNew ++ new } }
  let s := reclaimAll ((List.range 70).foldl (fun s r => ringEnd (ringStop s r) r) s)
  txWork (ringFlags (ringFlags s 0) 1)

/-- Step 9 of R20, with the other work that follows a boundary. -/
def boundaryLast (s : State) (rep : BoundaryReport) : State :=
  let s := auditSlice (slice9 s)
  let s := slotScrub s rep.copy0Bad rep.copy1Bad rep.slotLanes rep.slotCore
  let s := renewBoundary s
  let s := winPump (enterClosed s.gw.closed.length s)
  hungRelease (bugBoundary s)

/-- R20: a boundary: what closes the old beat, the beat number, and the work of the new beat's steps. -/
def boundaryWork (s : State) (rep : BoundaryReport) : State :=
  let s := s.sameTime (loadRead (beatClose s) rep.loadSlabs)
  let k := s.hif.evNew.length
  let s := rep.engCe.foldl (fun s e => s.setEngine e { s.engine e with corrected := (s.engine e).corrected + 1 }) s
  let b := beatBegin (crossingOverflow (monitorsBack s rep.monBack rep.railBack) rep.xing)
  b.sameBeat (boundaryLast (boundaryHost (boundaryRuns (boundaryFirst b rep)) k rep.flags) rep)

/-- R505: has the time of a reset that CLK_RST_CMD asked for come. -/
def State.resetDue (s : State) : Bool :=
  match s.clk.rstAt with
  | some t => decide (t.toNat ≤ s.boundaryAt.toNat)
  | none => false

/-- A boundary: the reset that is due, or the work of R20. -/
def boundary (s : State) (rep : BoundaryReport) : State := if s.resetDue then dieStart s 6 else boundaryWork s rep

/-- BEAT_BOUNDARY (R20): domain 0 reaches the next beat instant. -/
def execBeatBoundary (rep : BoundaryReport) (s : State) : Ans := onDie s (fun s => boundary s rep)

end Sys2Proof.Machine
end

