-- ==== Sys2Proof/Machine/Dispatch.lean ====
section
/-! DEFINITION. The command dispatch: one arm per constructor of Instr. -/

namespace Sys2Proof.Machine

/-- The effect of a command on everything but the queue. -/
def exec (i : Instr) (s : State) : Host.Outcome State Fault Refusal :=
  match i with
  | .registerWrite acc => Sys2Proof.Machine.execRegisterWrite acc s
  | .rcRegisterRead acc => Sys2Proof.Machine.execRcRegisterRead acc s
  | .timeCntLoRead => Sys2Proof.Machine.execTimeCntLoRead s
  | .counterLowRead off => Sys2Proof.Machine.execCounterLowRead off s
  | .timeCapFifoLoRead idx => Sys2Proof.Machine.execTimeCapFifoLoRead idx s
  | .timeCapFifoHiRead idx => Sys2Proof.Machine.execTimeCapFifoHiRead idx s
  | .winFenceRead w => Sys2Proof.Machine.execWinFenceRead w s
  | .beatBoundary rep => Sys2Proof.Machine.execBeatBoundary rep s
  | .refreshWrite => Sys2Proof.Machine.execRefreshWrite s
  | .ctUpdateWrite => Sys2Proof.Machine.execCtUpdateWrite s
  | .streamSweep => Sys2Proof.Machine.execStreamSweep s
  | .noClaim => Sys2Proof.Machine.execNoClaim s
  | .fvRenewalDone => Sys2Proof.Machine.execFvRenewalDone s
  | .linkHoldExpiry n => Sys2Proof.Machine.execLinkHoldExpiry n s
  | .hookTimeout e => Sys2Proof.Machine.execHookTimeout e s
  | .picRecordFree q h => Sys2Proof.Machine.execPicRecordFree q h s
  | .portEnable n w => Sys2Proof.Machine.execPortEnable n w s
  | .portDisable n w => Sys2Proof.Machine.execPortDisable n w s
  | .softRst n w => Sys2Proof.Machine.execSoftRst n w s
  | .forget n => Sys2Proof.Machine.execForget n s
  | .linkUp n rep => Sys2Proof.Machine.execLinkUp n rep s
  | .linkDown n => Sys2Proof.Machine.execLinkDown n s
  | .fastFallback x => Sys2Proof.Machine.execFastFallback x s
  | .coefficientStore n coef => Sys2Proof.Machine.execCoefficientStore n coef s
  | .plcaBeaconTimeout n => Sys2Proof.Machine.execPlcaBeaconTimeout n s
  | .frameReceive n rx => Sys2Proof.Machine.execFrameReceive n rx s
  | .parse f ecc => Sys2Proof.Machine.execParse f ecc s
  | .decision f => Sys2Proof.Machine.execDecision f s
  | .copyWrite k ecc => Sys2Proof.Machine.execCopyWrite k ecc s
  | .copyLink k => Sys2Proof.Machine.execCopyLink k s
  | .transmitChoice p ecc => Sys2Proof.Machine.execTransmitChoice p ecc s
  | .copySent p ecc => Sys2Proof.Machine.execCopySent p ecc s
  | .gateChange n => Sys2Proof.Machine.execGateChange n s
  | .creditZero q => Sys2Proof.Machine.execCreditZero q s
  | .rxDelivery k desc => Sys2Proof.Machine.execRxDelivery k desc s
  | .giveUp pl why => Sys2Proof.Machine.execGiveUp pl why s
  | .pipelineWatchdog pl => Sys2Proof.Machine.execPipelineWatchdog pl s
  | .swap => Sys2Proof.Machine.execSwap s
  | .selftestDone pl pass seg => Sys2Proof.Machine.execSelftestDone pl pass seg s
  | .resyncEnd => Sys2Proof.Machine.execResyncEnd s
  | .desync crc => Sys2Proof.Machine.execDesync crc s
  | .safeStateEntry cause => Sys2Proof.Machine.execSafeStateEntry cause s
  | .hostForce w => Sys2Proof.Machine.execHostForce w s
  | .safeLeave w => Sys2Proof.Machine.execSafeLeave w s
  | .safeLeaveResult aPass bPass => Sys2Proof.Machine.execSafeLeaveResult aPass bPass s
  | .ctFlush => Sys2Proof.Machine.execCtFlush s
  | .unblock => Sys2Proof.Machine.execUnblock s
  | .audit => Sys2Proof.Machine.execAudit s
  | .tblRead src => Sys2Proof.Machine.execTblRead src s
  | .tblWrite src => Sys2Proof.Machine.execTblWrite src s
  | .tblInsert src => Sys2Proof.Machine.execTblInsert src s
  | .tblDelete src => Sys2Proof.Machine.execTblDelete src s
  | .tblSearch src => Sys2Proof.Machine.execTblSearch src s
  | .tblNext src => Sys2Proof.Machine.execTblNext src s
  | .flushPort src => Sys2Proof.Machine.execFlushPort src s
  | .tblMove src => Sys2Proof.Machine.execTblMove src s
  | .seedSet src => Sys2Proof.Machine.execSeedSet src s
  | .tblCmdComplete => Sys2Proof.Machine.execTblCmdComplete s
  | .canReceive c f => Sys2Proof.Machine.execCanReceive c f s
  | .linHeader x id err => Sys2Proof.Machine.execLinHeader x id err s
  | .linResponseReceive l id resp err => Sys2Proof.Machine.execLinResponseReceive l id resp err s
  | .linScheduleSlot x => Sys2Proof.Machine.execLinScheduleSlot x s
  | .canTxDone c => Sys2Proof.Machine.execCanTxDone c s
  | .txExpired x => Sys2Proof.Machine.execTxExpired x s
  | .busOff c => Sys2Proof.Machine.execBusOff c s
  | .busOffRecoveryStart c => Sys2Proof.Machine.execBusOffRecoveryStart c s
  | .recover c => Sys2Proof.Machine.execRecover c s
  | .busOffRecovered c => Sys2Proof.Machine.execBusOffRecovered c s
  | .txFlush c => Sys2Proof.Machine.execTxFlush c s
  | .txdTimeout c released => Sys2Proof.Machine.execTxdTimeout c released s
  | .canControllerEnable c w => Sys2Proof.Machine.execCanControllerEnable c w s
  | .containerTimeout t => Sys2Proof.Machine.execContainerTimeout t s
  | .tunnelContainerReceive k => Sys2Proof.Machine.execTunnelContainerReceive k s
  | .eventRoutine x => Sys2Proof.Machine.execEventRoutine x s
  | .kelpieRunEnd => Sys2Proof.Machine.execKelpieRunEnd s
  | .engineFault e cause pc => Sys2Proof.Machine.execEngineFault e cause pc s
  | .restart e => Sys2Proof.Machine.execRestart e s
  | .loadGo w slabs => Sys2Proof.Machine.execLoadGo w slabs s
  | .loadCancel => Sys2Proof.Machine.execLoadCancel s
  | .loadCheckDone => Sys2Proof.Machine.execLoadCheckDone s
  | .mboxIn e w => Sys2Proof.Machine.execMboxIn e w s
  | .nop e => Sys2Proof.Machine.execNop e s
  | .add e rd ra rb => Sys2Proof.Machine.execAdd e rd ra rb s
  | .sub e rd ra rb => Sys2Proof.Machine.execSub e rd ra rb s
  | .and e rd ra rb => Sys2Proof.Machine.execAnd e rd ra rb s
  | .or e rd ra rb => Sys2Proof.Machine.execOr e rd ra rb s
  | .xor e rd ra rb => Sys2Proof.Machine.execXor e rd ra rb s
  | .shl e rd ra rb => Sys2Proof.Machine.execShl e rd ra rb s
  | .shr e rd ra rb => Sys2Proof.Machine.execShr e rd ra rb s
  | .sar e rd ra rb => Sys2Proof.Machine.execSar e rd ra rb s
  | .slt e rd ra rb => Sys2Proof.Machine.execSlt e rd ra rb s
  | .sltu e rd ra rb => Sys2Proof.Machine.execSltu e rd ra rb s
  | .mul e rd ra rb => Sys2Proof.Machine.execMul e rd ra rb s
  | .mulhu e rd ra rb => Sys2Proof.Machine.execMulhu e rd ra rb s
  | .addi e rd ra imm => Sys2Proof.Machine.execAddi e rd ra imm s
  | .andi e rd ra imm => Sys2Proof.Machine.execAndi e rd ra imm s
  | .ori e rd ra imm => Sys2Proof.Machine.execOri e rd ra imm s
  | .xori e rd ra imm => Sys2Proof.Machine.execXori e rd ra imm s
  | .shli e rd ra imm => Sys2Proof.Machine.execShli e rd ra imm s
  | .shri e rd ra imm => Sys2Proof.Machine.execShri e rd ra imm s
  | .sari e rd ra imm => Sys2Proof.Machine.execSari e rd ra imm s
  | .lui e rd imm => Sys2Proof.Machine.execLui e rd imm s
  | .sltiu e rd ra imm => Sys2Proof.Machine.execSltiu e rd ra imm s
  | .ext e rd ra imm => Sys2Proof.Machine.execExt e rd ra imm s
  | .ins e rd ra imm => Sys2Proof.Machine.execIns e rd ra imm s
  | .ld e rd ra imm => Sys2Proof.Machine.execLd e rd ra imm s
  | .ldh e rd ra imm => Sys2Proof.Machine.execLdh e rd ra imm s
  | .ldb e rd ra imm => Sys2Proof.Machine.execLdb e rd ra imm s
  | .ldbe e rd ra imm => Sys2Proof.Machine.execLdbe e rd ra imm s
  | .st e rd ra imm => Sys2Proof.Machine.execSt e rd ra imm s
  | .sth e rd ra imm => Sys2Proof.Machine.execSth e rd ra imm s
  | .stb e rd ra imm => Sys2Proof.Machine.execStb e rd ra imm s
  | .stbe e rd ra imm => Sys2Proof.Machine.execStbe e rd ra imm s
  | .beq e ra rb target => Sys2Proof.Machine.execBeq e ra rb target s
  | .bne e ra rb target => Sys2Proof.Machine.execBne e ra rb target s
  | .blt e ra rb target => Sys2Proof.Machine.execBlt e ra rb target s
  | .bge e ra rb target => Sys2Proof.Machine.execBge e ra rb target s
  | .bltu e ra rb target => Sys2Proof.Machine.execBltu e ra rb target s
  | .bgeu e ra rb target => Sys2Proof.Machine.execBgeu e ra rb target s
  | .jmp e target => Sys2Proof.Machine.execJmp e target s
  | .call e target => Sys2Proof.Machine.execCall e target s
  | .ret e => Sys2Proof.Machine.execRet e s
  | .loop e rc max stop => Sys2Proof.Machine.execLoop e rc max stop s
  | .halt e => Sys2Proof.Machine.execHalt e s
  | .cyc e rd => Sys2Proof.Machine.execCyc e rd s
  | .fltMatch e rd ra n => Sys2Proof.Machine.execFltMatch e rd ra n s
  | .fltWriteState e rd ra n => Sys2Proof.Machine.execFltWriteState e rd ra n s
  | .fwq e rd ra n => Sys2Proof.Machine.execFwq e rd ra n s
  | .cmacGenerate e rd ra n rep => Sys2Proof.Machine.execCmacGenerate e rd ra n rep s
  | .cmacVerify e rd ra n rep => Sys2Proof.Machine.execCmacVerify e rd ra n rep s
  | .putSend e rd ra n => Sys2Proof.Machine.execPutSend e rd ra n s
  | .putHandoff e rd ra n => Sys2Proof.Machine.execPutHandoff e rd ra n s
  | .get e rd ra n => Sys2Proof.Machine.execGet e rd ra n s
  | .vrd e rd => Sys2Proof.Machine.execVrd e rd s
  | .timeDomain e rd d => Sys2Proof.Machine.execTimeDomain e rd d s
  | .timeBeat e rd => Sys2Proof.Machine.execTimeBeat e rd s
  | .timeCounter e rd => Sys2Proof.Machine.execTimeCounter e rd s
  | .sysEvent e rd => Sys2Proof.Machine.execSysEvent e rd s
  | .sysRecTrig e rd => Sys2Proof.Machine.execSysRecTrig e rd s
  | .sysCount e rd => Sys2Proof.Machine.execSysCount e rd s
  | .sysMboxOut e rd => Sys2Proof.Machine.execSysMboxOut e rd s
  | .sysBugle e rd => Sys2Proof.Machine.execSysBugle e rd s
  | .applyRate d w => Sys2Proof.Machine.execApplyRate d w s
  | .applyAdj d w => Sys2Proof.Machine.execApplyAdj d w s
  | .applySet d w => Sys2Proof.Machine.execApplySet d w s
  | .take => Sys2Proof.Machine.execTake s
  | .comparatorFire m => Sys2Proof.Machine.execComparatorFire m s
  | .trigEdge t => Sys2Proof.Machine.execTrigEdge t s
  | .capEdge idx falling stamp => Sys2Proof.Machine.execCapEdge idx falling stamp s
  | .gptpSync d sync => Sys2Proof.Machine.execGptpSync d sync s
  | .syncLoss d => Sys2Proof.Machine.execSyncLoss d s
  | .hifKick w => Sys2Proof.Machine.execHifKick w s
  | .doorbellPollData data err => Sys2Proof.Machine.execDoorbellPollData data err s
  | .txDescriptorArrival r descs => Sys2Proof.Machine.execTxDescriptorArrival r descs s
  | .txDataArrival r data => Sys2Proof.Machine.execTxDataArrival r data s
  | .dmaErr r => Sys2Proof.Machine.execDmaErr r s
  | .ringReset r => Sys2Proof.Machine.execRingReset r s
  | .hifXwReclaim w => Sys2Proof.Machine.execHifXwReclaim w s
  | .flr => Sys2Proof.Machine.execFlr s
  | .perstN => Sys2Proof.Machine.execPerstN s
  | .busMasterEnableClear => Sys2Proof.Machine.execBusMasterEnableClear s
  | .batch r idx desc slabs => Sys2Proof.Machine.execBatch r idx desc slabs s
  | .winWrite acc => Sys2Proof.Machine.execWinWrite acc s
  | .winRead acc => Sys2Proof.Machine.execWinRead acc s
  | .localWindowAccess wr acc => Sys2Proof.Machine.execLocalWindowAccess wr acc s
  | .ezsynRequest rq => Sys2Proof.Machine.execEzsynRequest rq s
  | .ezsynResponse rs => Sys2Proof.Machine.execEzsynResponse rs s
  | .winTimeout w => Sys2Proof.Machine.execWinTimeout w s
  | .winPwePop => Sys2Proof.Machine.execWinPwePop s
  | .keyImport r idx desc data lanes work => Sys2Proof.Machine.execKeyImport r idx desc data lanes work s
  | .keyImportPlain r idx desc data lanes core => Sys2Proof.Machine.execKeyImportPlain r idx desc data lanes core s
  | .keyExport r idx desc data lanes work => Sys2Proof.Machine.execKeyExport r idx desc data lanes work s
  | .keyErase r idx desc data => Sys2Proof.Machine.execKeyErase r idx desc data s
  | .keyLoad r idx desc data => Sys2Proof.Machine.execKeyLoad r idx desc data s
  | .keyEvict r idx desc data => Sys2Proof.Machine.execKeyEvict r idx desc data s
  | .keyInfo r idx desc data lanes core => Sys2Proof.Machine.execKeyInfo r idx desc data lanes core s
  | .keyStoreUpdate x => Sys2Proof.Machine.execKeyStoreUpdate x s
  | .slotLoadDone k work => Sys2Proof.Machine.execSlotLoadDone k work s
  | .coreFailed c => Sys2Proof.Machine.execCoreFailed c s
  | .saWrite acc => Sys2Proof.Machine.execSaWrite acc s
  | .tapRead t k => Sys2Proof.Machine.execTapRead t k s
  | .sectorFlush t => Sys2Proof.Machine.execSectorFlush t s
  | .sectorWrite t flag reps => Sys2Proof.Machine.execSectorWrite t flag reps s
  | .recTrigger => Sys2Proof.Machine.execRecTrigger s
  | .announcementReceive k => Sys2Proof.Machine.execAnnouncementReceive k s
  | .recFreeze => Sys2Proof.Machine.execRecFreeze s
  | .rearm => Sys2Proof.Machine.execRearm s
  | .sleepRequest w => Sys2Proof.Machine.execSleepRequest w s
  | .forcedSleepRequest w => Sys2Proof.Machine.execForcedSleepRequest w s
  | .dozeRequest w => Sys2Proof.Machine.execDozeRequest w s
  | .sleepCancel => Sys2Proof.Machine.execSleepCancel s
  | .sleepAck => Sys2Proof.Machine.execSleepAck s
  | .dozeWake => Sys2Proof.Machine.execDozeWake s
  | .tc10SleepAck n => Sys2Proof.Machine.execTc10SleepAck n s
  | .tc10SleepRequestReceive n => Sys2Proof.Machine.execTc10SleepRequestReceive n s
  | .prepTimeout => Sys2Proof.Machine.execPrepTimeout s
  | .sleepStop => Sys2Proof.Machine.execSleepStop s
  | .sleepCommit => Sys2Proof.Machine.execSleepCommit s
  | .dDieDown => Sys2Proof.Machine.execDDieDown s
  | .wakePin idx rising => Sys2Proof.Machine.execWakePin idx rising s
  | .canWup c => Sys2Proof.Machine.execCanWup c s
  | .canFrame c f => Sys2Proof.Machine.execCanFrame c f s
  | .canErr c => Sys2Proof.Machine.execCanErr c s
  | .linWake l => Sys2Proof.Machine.execLinWake l s
  | .tc10Wake n => Sys2Proof.Machine.execTc10Wake n s
  | .wakeTimer => Sys2Proof.Machine.execWakeTimer s
  | .vbatReturn => Sys2Proof.Machine.execVbatReturn s
  | .wakeSequence => Sys2Proof.Machine.execWakeSequence s
  | .bugWakeClr => Sys2Proof.Machine.execBugWakeClr s
  | .brownout => Sys2Proof.Machine.execBrownout s
  | .vbatHigh => Sys2Proof.Machine.execVbatHigh s
  | .railFail r => Sys2Proof.Machine.execRailFail r s
  | .rail r => Sys2Proof.Machine.execRail r s
  | .powerLoss => Sys2Proof.Machine.execPowerLoss s
  | .inhFault idx => Sys2Proof.Machine.execInhFault idx s
  | .thermalShutdown u => Sys2Proof.Machine.execThermalShutdown u s
  | .updOpen r idx desc data => Sys2Proof.Machine.execUpdOpen r idx desc data s
  | .updWrite r idx desc slabs => Sys2Proof.Machine.execUpdWrite r idx desc slabs s
  | .updCommit r idx desc data => Sys2Proof.Machine.execUpdCommit r idx desc data s
  | .updAbort r idx desc data => Sys2Proof.Machine.execUpdAbort r idx desc data s
  | .stagingLockExpiry => Sys2Proof.Machine.execStagingLockExpiry s
  | .activate r idx desc data => Sys2Proof.Machine.execActivate r idx desc data s
  | .activateTrial r idx desc data => Sys2Proof.Machine.execActivateTrial r idx desc data s
  | .activateCopyDone ok => Sys2Proof.Machine.execActivateCopyDone ok s
  | .activateShepherdRestart => Sys2Proof.Machine.execActivateShepherdRestart s
  | .incCtr r idx desc data => Sys2Proof.Machine.execIncCtr r idx desc data s
  | .cfgCommit r idx desc data => Sys2Proof.Machine.execCfgCommit r idx desc data s
  | .commitCheckDone => Sys2Proof.Machine.execCommitCheckDone s
  | .cfgCancel r idx desc data => Sys2Proof.Machine.execCfgCancel r idx desc data s
  | .cfgDiscard r idx desc data => Sys2Proof.Machine.execCfgDiscard r idx desc data s
  | .save r idx desc data => Sys2Proof.Machine.execSave r idx desc data s
  | .settingsPut r idx desc slabs => Sys2Proof.Machine.execSettingsPut r idx desc slabs s
  | .settingsGet r idx desc slabs => Sys2Proof.Machine.execSettingsGet r idx desc slabs s
  | .requestDownload tester addr size => Sys2Proof.Machine.execRequestDownload tester addr size s
  | .transferData tester block data => Sys2Proof.Machine.execTransferData tester block data s
  | .requestTransferExit tester => Sys2Proof.Machine.execRequestTransferExit tester s
  | .routineControlActivate tester => Sys2Proof.Machine.execRoutineControlActivate tester s
  | .routineControlAbort tester => Sys2Proof.Machine.execRoutineControlAbort tester s
  | .ecuReset tester => Sys2Proof.Machine.execEcuReset tester s
  | .lldpTlvReceive n mac tlv ttl => Sys2Proof.Machine.execLldpTlvReceive n mac tlv ttl s
  | .peerLost j => Sys2Proof.Machine.execPeerLost j s
  | .peerTtlExpiry j => Sys2Proof.Machine.execPeerTtlExpiry j s
  | .lldpduSend => Sys2Proof.Machine.execLldpduSend s
  | .clockStop w => Sys2Proof.Machine.execClockStop w s
  | .clockStart w => Sys2Proof.Machine.execClockStart w s
  | .clockMonitorFail m => Sys2Proof.Machine.execClockMonitorFail m s
  | .pcieRefLost => Sys2Proof.Machine.execPcieRefLost s
  | .hang addr => Sys2Proof.Machine.execHang addr s
  | .clkRstCmd w => Sys2Proof.Machine.execClkRstCmd w s
  | .resetN low => Sys2Proof.Machine.execResetN low s
  | .powerOn => Sys2Proof.Machine.execPowerOn s
  | .shepherdReset lockstep => Sys2Proof.Machine.execShepherdReset lockstep s
  | .startup rep => Sys2Proof.Machine.execStartup rep s
  | .ready => Sys2Proof.Machine.execReady s
  | .telSnapTake w => Sys2Proof.Machine.execTelSnapTake w s
  | .telSnapCancel => Sys2Proof.Machine.execTelSnapCancel s
  | .glbLock => Sys2Proof.Machine.execGlbLock s
  | .canBusError c err => Sys2Proof.Machine.execCanBusError c err s
  | .noResponse l => Sys2Proof.Machine.execNoResponse l s
  | .collision x => Sys2Proof.Machine.execCollision x s
  | .plcaBeaconsReturn n => Sys2Proof.Machine.execPlcaBeaconsReturn n s
  | .vbatCrossed ok => Sys2Proof.Machine.execVbatCrossed ok s
  | .thermalRecovery u => Sys2Proof.Machine.execThermalRecovery u s
  | .pcieRefReturn => Sys2Proof.Machine.execPcieRefReturn s
  | .perstNRelease => Sys2Proof.Machine.execPerstNRelease s
  | .busMasterEnableSet => Sys2Proof.Machine.execBusMasterEnableSet s
  | .shepherdRestartDone => Sys2Proof.Machine.execShepherdRestartDone s
  | .linChannelEnable l w => Sys2Proof.Machine.execLinChannelEnable l w s
  | .debugAccess wr addr w => Sys2Proof.Machine.execDebugAccess wr addr w s

end Sys2Proof.Machine
end

