-- ==== Sys2Proof/Safety.lean ====
section
/-! DEFINITION. What counts as a safe run, and the words in which statements about the machine are put: what a step leaves as it
was, what an engine's instruction writes, which commands act with the D-die off. -/

namespace Sys2Proof

/-- The commands that act whether or not the D-die runs: the wakes, the supplies, the A-die's thermal shutdowns and RESET_N
(R430, R437 to R441, R504, R530). -/
def Instr.ofSupply : Instr → Bool
  | .wakePin _ _ | .canWup _ | .canFrame _ _ | .canErr _ | .linWake _ | .tc10Wake _ | .wakeTimer | .vbatReturn
  | .wakeSequence | .brownout | .powerLoss | .inhFault _ | .thermalShutdown _ | .thermalRecovery _ | .resetN _
  | .powerOn => true
  | _ => false

end Sys2Proof

namespace Sys2Proof.Machine

/-- A step of the device answers a next state: no command stops it (R29). -/
def Goes (s : State) : Prop := ∃ t, step s = .next t

/-- Command `c` answers a next state of which `P` holds. -/
def Does (c : Instr) (s : State) (P : State → Prop) : Prop := ∃ t, exec c s = .next t ∧ P t

/-- R351: the host reaches the device, and a whole-DW write to register `r` of index `i` is served. -/
def Served (s : State) (r : Reg) (i : Nat) : Prop := s.dOn = true ∧ s.hostUp = true ∧ s.regRefusal r i = none

/-- The register whose BAR0 write a command row is, with its index (R351). -/
def barReg : Instr → Option (Reg × Nat)
  | .portEnable n _ | .portDisable n _ | .softRst n _ => some (.PORT_CTRL, n)
  | .forget n => some (.PORT_FASTLINK_CTRL, n)
  | .swap => some (.TWIN_CMD, 0)
  | .hostForce _ | .safeLeave _ => some (.TWIN_SAFE_CTRL, 0)
  | .ctFlush => some (.FW_CT_CMD, 0)
  | .unblock => some (.LKP_FDB_CTRL, 0)
  | .audit => some (.BUF_CMD, 0)
  | .recover c | .txFlush c => some (.GW_CAN_CMD, c)
  | .canControllerEnable c _ => some (.GW_CAN_CTRL, c)
  | .linChannelEnable l _ => some (.GW_LIN_CTRL, l)
  | .restart e => some (.KLP_ENG_CMD, e)
  | .mboxIn e _ => some (.KLP_MBOX_IN, e)
  | .loadGo _ _ | .loadCancel => some (.KLP_LOAD_CMD, 0)
  | .applyRate d _ | .applyAdj d _ | .applySet d _ => some (.TIME_DOM_CMD, d)
  | .take => some (.TIME_SNAP_CMD, 0)
  | .hifKick _ => some (.HIF_KICK, 0)
  | .ringReset r => some (ringCmdReg r)
  | .hifXwReclaim _ => some (.HIF_XW_RECLAIM, 0)
  | .winPwePop => some (.WIN_PWE_POP, 0)
  | .recTrigger | .rearm => some (.REC_CMD, 0)
  | .sleepRequest _ | .forcedSleepRequest _ | .dozeRequest _ | .sleepCancel | .sleepAck | .dozeWake => some (.BUG_SLEEP_CMD, 0)
  | .bugWakeClr => some (.BUG_WAKE_CLR, 0)
  | .clockStop _ | .clockStart _ => some (.CLK_GATE, 0)
  | .clkRstCmd _ => some (.CLK_RST_CMD, 0)
  | .telSnapTake _ | .telSnapCancel => some (.TEL_SNAP_CMD, 0)
  | .glbLock => some (.GLB_LOCK, 0)
  | .tblRead (.reg _) | .tblWrite (.reg _) | .tblInsert (.reg _) | .tblDelete (.reg _) | .tblSearch (.reg _)
  | .tblNext (.reg _) | .flushPort (.reg _) | .tblMove (.reg _) | .seedSet (.reg _) => some (.TBL_CMD, 0)
  | _ => none

/-- R504: while RESET_N is low the D-die does not run. -/
def State.HeldInReset (s : State) : Prop := s.dOn = true → s.clk.resetN = true

/-! ### Kelpie engines -/

/-- The D-die runs, and engine `e` executes a routine. -/
def Runs (s : State) (e : Nat) : Prop := s.dOn = true ∧ s.engRuns e = true

/-- Nothing but engine `e` and the record of outputs differs. -/
def OnlyEngine (s t : State) (e : Nat) : Prop :=
  t = { s with out := t.out, eng := t.eng } ∧ ∀ k, k ≠ e → t.engine k = s.engine k

/-- The next instruction in sequence is reached: the word after this one, unless a loop ends at this one (R302). -/
def Advances (g g' : Engine) : Prop :=
  (∀ l ∈ g.loops.head?, ¬ (l.2.1 / 4096 = g.calls.length ∧ g.pc = l.2.1 % 4096)) → g'.pc = g.pc + 1 ∧ g'.loops = g.loops

/-- What an instruction of an engine leaves that only writes a register: its memory, its calls, its routine and item, its
permission mask and its verification. -/
def KeepsRest (g g' : Engine) : Prop :=
  g'.dat = g.dat ∧ g'.calls = g.calls ∧ g'.run = g.run ∧ g'.item = g.item ∧ g'.kp = g.kp ∧ g'.kv = g.kv ∧
  g'.image = g.image ∧ g'.faulted = g.faulted

/-- Register `rd` of the routine's bank takes `v` (nothing, where rd is k0), `cost` cycles pass, the next instruction is
reached, and nothing else of the device changes (R301, R302). -/
def WritesReg (s t : State) (e rd : Nat) (v : Word) (cost : Nat) : Prop :=
  (∀ k, (t.engine e).rg k = if k = rd ∧ rd ≠ 0 then v else (s.engine e).rg k) ∧
  (t.engine e).used = (s.engine e).used + cost ∧
  Advances (s.engine e) (t.engine e) ∧ KeepsRest (s.engine e) (t.engine e) ∧ OnlyEngine s t e

/-- R303: the byte at an address of an engine's map: data memory, or the event window, which holds the item of an event
routine. -/
def Engine.peek (g : Engine) (a : Nat) : Byte :=
  if a < 8192 then SMap.get 0 g.dat a
  else match g.inEvent, g.item with
    | true, some it => byteAt it.bytes (a - 0x4000)
    | _, _ => 0

/-- R303: `n` bytes from an address can be loaded: aligned, in data memory or in the event window. -/
def Loadable (a n : Nat) : Prop := a % n = 0 ∧ (a + n ≤ 8192 ∨ (0x4000 ≤ a ∧ a + n ≤ 0x5000))

/-- R303: `n` bytes from an address can be stored: aligned, in data memory. -/
def Storable (a n : Nat) : Prop := a % n = 0 ∧ a + n ≤ 8192

/-- The bytes `l` stand in data memory from `a`, every other byte of it as before, and nothing else of the device changes but
the cycles that pass and the place of the routine. -/
def StoresBytes (s t : State) (e a : Nat) (l : List Byte) (cost : Nat) : Prop :=
  (∀ x, SMap.get 0 (t.engine e).dat x = if a ≤ x ∧ x < a + l.length then byteAt l (x - a) else SMap.get 0 (s.engine e).dat x) ∧
  (∀ k, (t.engine e).rg k = (s.engine e).rg k) ∧ (t.engine e).used = (s.engine e).used + cost ∧
  Advances (s.engine e) (t.engine e) ∧ (t.engine e).run = (s.engine e).run ∧ (t.engine e).item = (s.engine e).item ∧
  OnlyEngine s t e

/-- R320, R321: the fault of an engine at the instruction it executes: KLP_ENG_STATUS shows the cause and the PC, and
KLP_ENG_EVENT.FAULT is set. -/
def ShowsFault (s t : State) (e cause : Nat) : Prop :=
  t.reg .KLP_ENG_STATUS e = BitVec.ofNat 32 (cause * 16 + (s.engine e).pc % 4096 * 256) ∧ t.rbit .KLP_ENG_EVENT 0 e = true

/-- A branch: to `target` when `p` holds, else to the next instruction; nothing else changes. -/
def Branches (s t : State) (e : Nat) (p : Prop) (target : Nat) : Prop :=
  (p → (t.engine e).pc = target) ∧ (¬ p → Advances (s.engine e) (t.engine e)) ∧
  (∀ k, (t.engine e).rg k = (s.engine e).rg k) ∧ (t.engine e).used = (s.engine e).used + 2 ∧
  KeepsRest (s.engine e) (t.engine e) ∧ OnlyEngine s t e

/-- The pair rd, rd + 1 takes a 64-bit value (R301); nothing else changes but the cycles and the place of the routine. -/
def WritesPair (s t : State) (e rd : Nat) (v : Wide) (cost : Nat) : Prop :=
  (∀ k, (t.engine e).rg k = if k = rd then v.truncate 32 else if k = rd + 1 then (v >>> 32).truncate 32 else (s.engine e).rg k) ∧
  (t.engine e).used = (s.engine e).used + cost ∧ Advances (s.engine e) (t.engine e) ∧
  KeepsRest (s.engine e) (t.engine e) ∧ OnlyEngine s t e

/-! ### The safe state -/

/-- R255: the device is in the safe state with a cause: no claim is accepted and both planes are silent, no frame is held,
FAULT_N is asserted, the engines that R255 names are halted, and the GPIO lands are held. -/
def InSafe (t : State) (cause : Nat) : Prop :=
  t.twin.safe = true ∧ t.twin.cause = cause ∧ t.twin.accepted = none ∧ t.twin.a.claim = 0 ∧ t.twin.b.claim = 0 ∧
  t.held = [] ∧ t.bug.faultN = true ∧ (∀ e : Fin 16, safeHalts e = true → (t.engine e).halted = true) ∧
  t.gpioHold = some (t.reg .GLB_GPIO_OE, t.reg .GLB_GPIO_OUT)

/-! ### Table commands -/

/-- R124, R126, R363, R365: the table command with operation `op` that a source issues: the registers of TBL, a descriptor of class 0, or
a batch's record. -/
def issued (s : State) (src : CmdSrc) (op : Nat) : TblOp :=
  match src with
  | .reg w => { cmd := setFld w 0 4 op &&& 0x7FF, index := s.reg .TBL_INDEX, filter := s.reg .TBL_FILTER,
                data := (List.range 16).map (fun i => s.reg .TBL_DATA i) }
  | .ring _ _ desc data => { cmd := wd (cmdDesc desc 0 op) 0, index := wd desc 1, filter := wd desc 2, data }
  | .batch _ _ w => recOp (wsetFld w 0 0 4 op)

/-- R91, R92, R125, R126, R351, R364, R365: the command may start now: the write of TBL_CMD is served, TBL_CMD is free and the beat's slice has
not ended (log entry 86); the descriptor is the next of its ring, which runs, well-formed, and the slice has room; the record is the next of a batch in progress, and the slice has room. -/
def TblStarts (s : State) (src : CmdSrc) (op : Nat) : Prop :=
  match src with
  | .reg _ => Served s .TBL_CMD 0 ∧ s.tblBusy = false ∧ s.twin.sliceEnd = false
  | .ring r idx desc _ => s.cmdOpen r idx.toNat (cmdDesc desc 0 op) = true ∧ (s.ring (64 + r.val)).stop = false ∧ cmdBad (cmdDesc desc 0 op) = false ∧
      s.tblStarts (issued s src op) = true
  | .batch r idx w => s.tblStarts (issued s src op) = true ∧
      ∃ d a, (s.ring (64 + r.val)).fetched.find? (fun d => d.idx == idx.toNat) = some d ∧ d.batchNext = some (a, wsetFld w 0 0 4 op)

/-- The command of a source runs, and is kept until the standby has its records (R125); of both `P` holds. -/
def TblDoes (c : CmdSrc → Instr) (s : State) (src : CmdSrc) (P : State → TblCmd → Prop) : Prop :=
  Does (c src) s (fun t => ∃ k, t.twin.cmds = s.twin.cmds ++ [k] ∧ P t k)

/-- An entry of the ACTIVE plane reads as these words; words beyond them read 0 (R127). -/
def Holds (t : State) (sp : Space) (i : Nat) (d : List Word) : Prop := ∀ k, wd (t.tget sp i) k = wd d k

/-- Every other entry of every table of the ACTIVE plane is as before. -/
def OthersKept (s t : State) (sp : Space) (i : Nat) : Prop :=
  ∀ k, k ≠ sp.key i → SMap.get [] t.act.mem k = SMap.get [] s.act.mem k

/-! ### Ports and frames -/

/-- R210: the copy that the output stage of port `n` chooses, if any, once the heads of its queues have been checked. -/
def State.choice (s : State) (n : Nat) : Option Copy :=
  (chooseCopy ((List.range 8).foldl (fun s t => checkHeads (accrue s (queueNo n t)) (queueNo n t)) s) n).1

/-- R51, R210: the copy `c` goes on the wire of its port as it is stored, now. -/
def GoesOnWire (s t : State) (c : Copy) : Prop :=
  (t.port c.port).cur = some c.id ∧ (t.port c.port).curAt = s.time.cnt ∧ (t.port c.port).curWire = c.bytes

/-- R33: port `n` runs with the settings of a word of PORT_CTRL. -/
def RunsWith (t : State) (n : Nat) (w : Word) : Prop :=
  let p := t.port n
  t.reg .PORT_CTRL n = w &&& 0x7FF ∧ p.started = bit w 0 ∧ p.speed = fld w 1 3 ∧ p.role = fld w 4 2 ∧ p.anEn = bit w 6 ∧
  p.hMode = bit w 7 ∧ p.loopback = fld w 8 2 ∧ p.polAuto = bit w 10 ∧
  t.rbit .PORT_LINK_STATUS 7 n = (bit w 0 && t.cfgBad n)

/-! ### Command rings -/

/-- R364: command descriptor `idx` of ring `r`, which runs, is the next, well-formed, and may start. -/
def CmdStarts (s : State) (r : Fin 2) (idx : BitVec 16) (d : List Word) : Prop :=
  s.cmdOpen r idx.toNat d = true ∧ (s.ring (64 + r.val)).stop = false ∧ cmdBad d = false ∧ ∀ x ∈ (s.ring (64 + r.val)).fetched, x.idx ≠ idx.toNat

/-- The descriptor of a command, as the device holds it until its completion is written. -/
def CmdShows (t : State) (r : Fin 2) (idx : BitVec 16) (P : Desc → Prop) : Prop :=
  ∃ d ∈ (t.ring (64 + r.val)).fetched, d.idx = idx.toNat ∧ P d

/-- R363, R493: a command is resolved with STATUS 0 and a code. -/
def CmdEnds (t : State) (r : Fin 2) (idx : BitVec 16) (code : Nat) : Prop :=
  CmdShows t r idx (fun d => d.state = 3 ∧ d.status = 0 ∧ d.res6 = BitVec.ofNat 32 (code * 256))

/-- R364: a command still runs. -/
def CmdRuns (t : State) (r : Fin 2) (idx : BitVec 16) : Prop := CmdShows t r idx (fun d => d.state = 1)

end Sys2Proof.Machine
end

