-- ==== Sys2Proof/Certificates/Slice0/Obligations.lean ====
section
/-! DEFINITION. The statements about the machine, from the numbered rules of the manual. -/

open Sys2Proof Sys2Proof.Machine

/-! ### The queue, the reset and the register map -/

/-- The command at the front of the queue is what a step runs, with the queue's rest. -/
def Obligations.StepRunsFront : Prop :=
  ∀ (c : Instr) (rest : List Instr) (s : State), s.pending = c :: rest → step s = exec c { s with pending := rest }

/-- R29: no command stops the device, and none touches the commands that wait or the part it is; with the D-die off, only the
commands of the supplies act. -/
def Obligations.EveryCommandCompletes : Prop :=
  ∀ (c : Instr) (s : State), Does c s (fun t =>
    t.pending = s.pending ∧ t.part = s.part ∧ (s.dOn = false → c.ofSupply = false → t = { s with out := [] }))

/-- R504: while RESET_N is low the D-die does not run: every step keeps it so. -/
def Obligations.HeldInResetKept : Prop := ∀ s t : State, s.HeldInReset → step s = .next t → t.HeldInReset

/-- R522: a register is found at the address that the register index gives it, whichever replica it is. -/
def Obligations.RegisterMapRoundTrip : Prop :=
  ∀ (r : Reg) (i j : Nat), i < r.row.n1 → j < r.row.n2 → Reg.at? (r.addr i j) = some (r, i, j)

/-- R231, R504, R506, R510: right after reset: start-up phase 1, both planes in SELFTEST and silent, no claim accepted, no
command waiting, nothing stored, the cause POWER_ON; the running domains are those of R495; and the reset is not held. -/
def Obligations.ResetState : Prop :=
  State.reset.HeldInReset ∧ State.reset.pending = [] ∧ State.reset.clk.phase = 1 ∧
  State.reset.twin.a.mode = .selftest ∧ State.reset.twin.b.mode = .selftest ∧ State.reset.twin.a.claim = 0 ∧
  State.reset.twin.b.claim = 0 ∧ State.reset.twin.accepted = none ∧ State.reset.twin.safe = false ∧
  State.reset.reg .CLK_RST_CAUSE = 1 ∧ State.reset.time.cnt = 0 ∧ State.reset.held = [] ∧ State.reset.copies = [] ∧
  State.reset.bug.faultN = true

/-- R325: with no command waiting one clock of the counter passes, and nothing else does (the model's choice, log entry 5). -/
def Obligations.IdleStepIsOneClock : Prop :=
  ∀ s : State, s.pending = [] → ∃ t, step s = .next t ∧
    (s.dOn = true → t = { s with out := [], time := { s.time with cnt := s.time.cnt + 1 } }) ∧
    (s.dOn = false → t = { s with out := [] })

/-- R3: GLB_DEVICE_ID tells the part and the stepping. -/
def Obligations.DeviceIdentity : Prop :=
  ∀ (s : State) (acc : BusRead), s.dOn = true → s.hostUp = true → acc.addr.toNat = Reg.GLB_DEVICE_ID.addr 0 0 → acc.be = 0xF →
    acc.dws = 1 → Does (.rcRegisterRead acc) s (fun t => ∃ v, t = { s with out := [.read v] } ∧
      fld v 0 16 = (match s.part with | .am7240 => 0x7240 | .am7220 => 0x7220) ∧ fld v 16 8 = 0xB0)

/-! ### Kelpie engines (chapter 10) -/

/-- R302: the register-to-register instructions: rd takes the value of the table, at its cost, and nothing else changes. R300,
R302: the instructions with an immediate: sign-extended for ADDI, zero-extended for the others. Completes: add, sub, and, or,
xor, shl, shr, sar, slt, sltu, mul, mulhu, addi, andi, ori, xori, shli, shri, sari, lui, sltiu, ext, ins. -/
def Obligations.KelpieArithmetic : Prop :=
  (∀ (s : State) (e rd ra rb : Fin 16), Runs s e →
    let a := (s.engine e).rg ra
    let b := (s.engine e).rg rb
    Does (.add e rd ra rb) s (fun t => WritesReg s t e rd (a + b) 1) ∧
    Does (.sub e rd ra rb) s (fun t => WritesReg s t e rd (a - b) 1) ∧
    Does (.and e rd ra rb) s (fun t => WritesReg s t e rd (a &&& b) 1) ∧
    Does (.or e rd ra rb) s (fun t => WritesReg s t e rd (a ||| b) 1) ∧
    Does (.xor e rd ra rb) s (fun t => WritesReg s t e rd (a ^^^ b) 1) ∧
    Does (.shl e rd ra rb) s (fun t => WritesReg s t e rd (a <<< (b.toNat % 32)) 1) ∧
    Does (.shr e rd ra rb) s (fun t => WritesReg s t e rd (a >>> (b.toNat % 32)) 1) ∧
    Does (.sar e rd ra rb) s (fun t => WritesReg s t e rd (a.sshiftRight (b.toNat % 32)) 1) ∧
    Does (.slt e rd ra rb) s (fun t => WritesReg s t e rd (if a.slt b then 1 else 0) 1) ∧
    Does (.sltu e rd ra rb) s (fun t => WritesReg s t e rd (if a < b then 1 else 0) 1) ∧
    Does (.mul e rd ra rb) s (fun t => WritesReg s t e rd (a * b) 3) ∧
    Does (.mulhu e rd ra rb) s (fun t =>
      WritesReg s t e rd (((a.zeroExtend 64 * b.zeroExtend 64) >>> 32).truncate 32) 3)) ∧
  (∀ (s : State) (e rd ra : Fin 16) (imm : BitVec 18), Runs s e →
    let a := (s.engine e).rg ra
    let d := (s.engine e).rg rd
    let z : Word := imm.zeroExtend 32
    let lo := imm.toNat % 32
    let n := imm.toNat / 32 % 32 + 1
    Does (.addi e rd ra imm) s (fun t => WritesReg s t e rd (a + imm.signExtend 32) 1) ∧
    Does (.andi e rd ra imm) s (fun t => WritesReg s t e rd (a &&& z) 1) ∧
    Does (.ori e rd ra imm) s (fun t => WritesReg s t e rd (a ||| z) 1) ∧
    Does (.xori e rd ra imm) s (fun t => WritesReg s t e rd (a ^^^ z) 1) ∧
    Does (.shli e rd ra imm) s (fun t => WritesReg s t e rd (a <<< lo) 1) ∧
    Does (.shri e rd ra imm) s (fun t => WritesReg s t e rd (a >>> lo) 1) ∧
    Does (.sari e rd ra imm) s (fun t => WritesReg s t e rd (a.sshiftRight lo) 1) ∧
    Does (.sltiu e rd ra imm) s (fun t => WritesReg s t e rd (if a < z then 1 else 0) 1) ∧
    Does (.lui e rd imm) s (fun t => WritesReg s t e rd (z <<< 14) 1) ∧
    Does (.ext e rd ra imm) s (fun t => WritesReg s t e rd (BitVec.ofNat 32 ((a.toNat / 2 ^ lo) % 2 ^ n)) 1) ∧
    Does (.ins e rd ra imm) s (fun t => ∃ v, WritesReg s t e rd v 1 ∧
      ∀ k, k < 32 → v.getLsbD k = if lo ≤ k ∧ k < lo + n then a.getLsbD (k - lo) else d.getLsbD k))

/-- R302, R303: the loads: rd takes the bytes at ra + IMM, zero-extended, little-endian but for LDBE. R302, R303: the stores:
the bytes of rd at ra + IMM in data memory, every other byte and everything else as before. R303, R320: any other address, a
misaligned access and a store to the event window are ADDR faults (cause 2). Completes: ld, ldh, ldb, ldbe, st, sth, stb, stbe.
-/
def Obligations.KelpieMemory : Prop :=
  (∀ (s : State) (e rd ra : Fin 16) (imm : BitVec 18), Runs s e →
    let g := s.engine e
    let a := (g.rg ra + imm.signExtend 32).toNat
    let b := fun k => (g.peek (a + k)).toNat
    (Loadable a 4 → Does (.ld e rd ra imm) s (fun t =>
      WritesReg s t e rd (BitVec.ofNat 32 (b 0 + 2 ^ 8 * b 1 + 2 ^ 16 * b 2 + 2 ^ 24 * b 3)) 2)) ∧
    (Loadable a 2 → Does (.ldh e rd ra imm) s (fun t => WritesReg s t e rd (BitVec.ofNat 32 (b 0 + 2 ^ 8 * b 1)) 2)) ∧
    (Loadable a 1 → Does (.ldb e rd ra imm) s (fun t => WritesReg s t e rd (BitVec.ofNat 32 (b 0)) 2)) ∧
    (Loadable a 4 → Does (.ldbe e rd ra imm) s (fun t =>
      WritesReg s t e rd (BitVec.ofNat 32 (2 ^ 24 * b 0 + 2 ^ 16 * b 1 + 2 ^ 8 * b 2 + b 3)) 2))) ∧
  (∀ (s : State) (e rd ra : Fin 16) (imm : BitVec 18), Runs s e →
    let g := s.engine e
    let a := (g.rg ra + imm.signExtend 32).toNat
    let d := fun k => (g.rg rd).extractLsb' (8 * k) 8
    (Storable a 4 → Does (.st e rd ra imm) s (fun t => StoresBytes s t e a [d 0, d 1, d 2, d 3] 1)) ∧
    (Storable a 2 → Does (.sth e rd ra imm) s (fun t => StoresBytes s t e a [d 0, d 1] 1)) ∧
    (Storable a 1 → Does (.stb e rd ra imm) s (fun t => StoresBytes s t e a [d 0] 1)) ∧
    (Storable a 4 → Does (.stbe e rd ra imm) s (fun t => StoresBytes s t e a [d 3, d 2, d 1, d 0] 1))) ∧
  (∀ (s : State) (e rd ra : Fin 16) (imm : BitVec 18), Runs s e →
    let a := ((s.engine e).rg ra + imm.signExtend 32).toNat
    (¬ Loadable a 4 → Does (.ld e rd ra imm) s (fun t => ShowsFault s t e 2) ∧
      Does (.ldbe e rd ra imm) s (fun t => ShowsFault s t e 2)) ∧
    (¬ Loadable a 2 → Does (.ldh e rd ra imm) s (fun t => ShowsFault s t e 2)) ∧
    (¬ Loadable a 1 → Does (.ldb e rd ra imm) s (fun t => ShowsFault s t e 2)) ∧
    (¬ Storable a 4 → Does (.st e rd ra imm) s (fun t => ShowsFault s t e 2) ∧
      Does (.stbe e rd ra imm) s (fun t => ShowsFault s t e 2)) ∧
    (¬ Storable a 2 → Does (.sth e rd ra imm) s (fun t => ShowsFault s t e 2)) ∧
    (¬ Storable a 1 → Does (.stb e rd ra imm) s (fun t => ShowsFault s t e 2)))

/-- R302: the branches compare ra with rb as named; JMP always goes to TARGET. R296, R302, R312: CALL pushes the return
address, RET goes back to it, LOOP starts its body with a count of passes or skips it, HALT ends the routine: after an event
routine the main routine resumes, or the engine idles. Completes: beq, bne, blt, bge, bltu, bgeu, jmp, call, ret, loop, halt.
-/
def Obligations.KelpieControlFlow : Prop :=
  (∀ (s : State) (e ra rb : Fin 16) (target : BitVec 12), Runs s e →
    let a := (s.engine e).rg ra
    let b := (s.engine e).rg rb
    Does (.beq e ra rb target) s (fun t => Branches s t e (a = b) target.toNat) ∧
    Does (.bne e ra rb target) s (fun t => Branches s t e (a ≠ b) target.toNat) ∧
    Does (.blt e ra rb target) s (fun t => Branches s t e (a.slt b = true) target.toNat) ∧
    Does (.bge e ra rb target) s (fun t => Branches s t e (a.slt b = false) target.toNat) ∧
    Does (.bltu e ra rb target) s (fun t => Branches s t e (a < b) target.toNat) ∧
    Does (.bgeu e ra rb target) s (fun t => Branches s t e (¬ a < b) target.toNat) ∧
    Does (.jmp e target) s (fun t => Branches s t e True target.toNat)) ∧
  (∀ (s : State) (e rc : Fin 16) (target stop : BitVec 12) (max : BitVec 10), Runs s e →
    let g := s.engine e
    let count := if rc = 0 then max.toNat else min (g.rg rc).toNat max.toNat
    (g.calls.length < 4 → Does (.call e target) s (fun t =>
      (t.engine e).pc = target.toNat ∧ (t.engine e).calls = (g.pc + 1) :: g.calls ∧ (t.engine e).used = g.used + 2 ∧
      (∀ k, (t.engine e).rg k = g.rg k) ∧ (t.engine e).dat = g.dat ∧ OnlyEngine s t e)) ∧
    (∀ a rest, g.calls = a :: rest → g.loops = [] → Does (.ret e) s (fun t =>
      (t.engine e).pc = a ∧ (t.engine e).calls = rest ∧ (t.engine e).used = g.used + 2 ∧
      (∀ k, (t.engine e).rg k = g.rg k) ∧ (t.engine e).dat = g.dat ∧ OnlyEngine s t e)) ∧
    (0 < count → g.loops.length < 4 → Does (.loop e rc max stop) s (fun t =>
      (t.engine e).pc = g.pc + 1 ∧ (t.engine e).used = g.used + 1 ∧
      (t.engine e).loops = (g.pc + 1, stop.toNat + 4096 * g.calls.length, count) :: g.loops ∧
      (∀ k, (t.engine e).rg k = g.rg k) ∧ (t.engine e).dat = g.dat ∧ OnlyEngine s t e)) ∧
    (0 < max.toNat → count = 0 → g.loops = [] → Does (.loop e rc max stop) s (fun t =>
      (t.engine e).pc = stop.toNat + 1 ∧ (t.engine e).used = g.used + 1 ∧ (t.engine e).loops = [] ∧ OnlyEngine s t e)) ∧
    Does (.halt e) s (fun t =>
      (t.engine e).run = (if g.inEvent && !g.mainHalted then .main else .idle) ∧ (t.engine e).used = g.used + 1 ∧
      (g.inEvent = false → (t.engine e).mainHalted = true) ∧ (t.engine e).dat = g.dat ∧ OnlyEngine s t e))

/-- R302: NOP, CYC, GET and TIME: the cycles left (as the count stood before the instruction: the model's reading, log entry
70), bytes copied from the event window to data memory, a time, the beat number or the counter in a pair. Completes: nop, cyc,
get, timeDomain, timeBeat, timeCounter. -/
def Obligations.KelpieCyclesWindowTime : Prop :=
  ∀ (s : State) (e rd ra : Fin 16) (n : BitVec 8) (d : Fin 4), Runs s e →
    let g := s.engine e
    let a := (g.rg ra).toNat
    let dst := (g.rg rd).toNat
    Does (.nop e) s (fun t => (∀ k, (t.engine e).rg k = g.rg k) ∧ (t.engine e).used = g.used + 1 ∧
      Advances g (t.engine e) ∧ KeepsRest g (t.engine e) ∧ OnlyEngine s t e) ∧
    Does (.cyc e rd) s (fun t => WritesReg s t e rd (BitVec.ofNat 32 (3840 - (g.used + g.idle))) 1) ∧
    (roleHas e .get = true → n ≠ 0 → 0x4000 ≤ a → a + 16 * n.toNat ≤ 0x5000 → dst + 16 * n.toNat ≤ 8192 →
      Does (.get e rd ra n) s (fun t =>
        StoresBytes s t e dst ((List.range (16 * n.toNat)).map (fun k => g.peek (a + k))) (2 + n.toNat))) ∧
    (rd.val % 2 = 0 → 2 ≤ rd.val → rd.val ≤ 14 →
      Does (.timeDomain e rd d) s (fun t => WritesPair s t e rd ((s.domain d).ns s.time.cnt) 4) ∧
      Does (.timeBeat e rd) s (fun t => WritesPair s t e rd (s.time.beat.zeroExtend 64) 4) ∧
      Does (.timeCounter e rd) s (fun t => WritesPair s t e rd s.time.cnt 4))

/-- R289, R306: FLT. FN 0 matches the current RX or TUNNEL item: the entry's nine words go to data memory at ra and its index
to rd, or rd shows that nothing matched (counted NO_ROUTE). FN 1 writes words 5 to 8 of the entry whose index is at ra. R307:
FWQ puts Mastiff's answer for the destinations asked about into rd and KP: a subset of those asked about; with more distinct
destination zones than N it is empty and counted FWQ_WIDE. Completes: fltMatch, fltWriteState, fwq. -/
def Obligations.KelpieQueries : Prop :=
  (∀ (s : State) (e rd ra : Fin 16) (n : BitVec 8) (it : Item) (b : Bool), Runs s e → e.val ≤ 6 → n ≠ 0 →
    let g := s.engine e
    let a := (g.rg ra).toNat
    a + 36 ≤ 8192 → s.answering = some b →
    (g.frameIn = some it →
      let found := (s.plane b).fltFind (itemFrame it.bytes) (itemSrc it.bytes) (itemWire it.bytes)
      (∀ i ent, found = some (i, ent) → Does (.fltMatch e rd ra n) s (fun t =>
        (∀ k, (t.engine e).rg k = if k = rd ∧ rd.val ≠ 0 then BitVec.ofNat 32 i else g.rg k) ∧
        (∀ x, SMap.get 0 (t.engine e).dat x =
          if a ≤ x ∧ x < a + 36 then (wd ent ((x - a) / 4)).extractLsb' (8 * ((x - a) % 4)) 8 else SMap.get 0 g.dat x) ∧
        (t.engine e).used = g.used + 16 ∧ OnlyEngine s t e)) ∧
      (found = none → Does (.fltMatch e rd ra n) s (fun t =>
        (∀ k, (t.engine e).rg k = if k = rd ∧ rd.val ≠ 0 then 0xFFFFFFFF else g.rg k) ∧
        t.ctr (.gwsrc (itemSrc it.bytes) .NO_ROUTE) = s.ctr (.gwsrc (itemSrc it.bytes) .NO_ROUTE) + 1 ∧
        (t.engine e).dat = g.dat ∧ t = { s with out := t.out, eng := t.eng, ctrs := t.ctrs }))) ∧
    (let i := leNat (g.bytes a 4) 0 4 % 1024
     Does (.fltWriteState e rd ra n) s (fun t =>
       (∀ k, wd ((t.plane b).rd .filter i) k =
         if 5 ≤ k ∧ k ≤ 8 then leWord (g.bytes (a + 20) 16) (4 * (k - 5)) else wd ((s.plane b).rd .filter i) k) ∧
       (∀ j, j ≠ i → (t.plane b).rd .filter j = (s.plane b).rd .filter j) ∧
       (t.engine e).dat = g.dat ∧ (∀ k, k ≠ rd → (t.engine e).rg k = g.rg k) ∧ (t.engine e).used = g.used + 16))) ∧
  (∀ (s : State) (e rd ra : Fin 16) (n : BitVec 8), Runs s e → e.val ≤ 7 → n ≠ 0 →
    let g := s.engine e
    let a := (g.rg ra).toNat
    let mask := leNat (g.bytes (a + 8) 4) 0 4 % 2 ^ 28
    a + 12 ≤ 8192 →
    Does (.fwq e rd ra n) s (fun t =>
      (t.engine e).kp &&& mask = (t.engine e).kp ∧
      (rd.val ≠ 0 → (t.engine e).rg rd = BitVec.ofNat 32 (t.engine e).kp) ∧
      (∀ k, k ≠ rd → (t.engine e).rg k = g.rg k) ∧ (t.engine e).dat = g.dat ∧
      (t.engine e).used = g.used + 12 + 4 * n.toNat ∧
      (n.toNat < s.maskZones mask → (t.engine e).kp = 0 ∧
        t.ctr (.klp e .FWQ_WIDE) = s.ctr (.klp e .FWQ_WIDE) + 1)))

/-- R308: CMAC. FN 0 stores the 16-byte tag of the message and gives 0 in rd; FN 1 compares MAC_LEN bytes and gives 0 or 1 in
rd, and a match sets KV; a key that cannot serve and a mismatch of the checker lane (counted, R388) give 2, a message longer
than 16 × N gives 3. The tag is `cmac`, AES-128 CMAC (log entry 75). Completes: cmacGenerate, cmacVerify. -/
def Obligations.KelpieCmac : Prop :=
  ∀ (s : State) (e rd ra : Fin 16) (n : BitVec 8), Runs s e → e.val ≤ 7 → n ≠ 0 → rd.val ≠ 0 →
    let g := s.engine e
    let a := (g.rg ra).toNat
    let blk := g.bytes a 12
    let slot := fld (leWord blk 0) 0 6
    let macLen := fld (leWord blk 0) 8 4 + 1
    let msgA := fld (leWord blk 4) 0 13
    let tagA := fld (leWord blk 4) 16 13
    let len := fld (leWord blk 8) 0 12
    let usable := (s.slot slot).st = .ready ∧ maskBit (s.slot slot).attr.use 2 = true ∧ (s.slot slot).attr.engine = true ∧
      (s.slot slot).attr.klen = false ∧ s.cmacCore e = true
    let tag := cmac (s.slot slot).key (g.bytes msgA len)
    a + 12 ≤ 8192 → msgA + len ≤ 8192 → tagA + 16 ≤ 8192 →
    (usable → len ≤ 16 * n.toNat → Does (.cmacGenerate e rd ra n {}) s (fun t =>
      (t.engine e).rg rd = 0 ∧
      (∀ x, SMap.get 0 (t.engine e).dat x =
        if tagA ≤ x ∧ x < tagA + tag.length then byteAt tag (x - tagA) else SMap.get 0 g.dat x) ∧
      (t.engine e).used = g.used + 16 + 4 * n.toNat ∧ OnlyEngine s t e)) ∧
    (usable → len ≤ 16 * n.toNat → Does (.cmacVerify e rd ra n {}) s (fun t =>
      (t.engine e).rg rd = (if tag.take macLen = g.bytes tagA macLen then 0 else 1) ∧
      (t.engine e).kv = (g.kv || tag.take macLen == g.bytes tagA macLen) ∧ (t.engine e).dat = g.dat ∧
      (t.engine e).used = g.used + 16 + 4 * n.toNat ∧ OnlyEngine s t e)) ∧
    (¬ usable → Does (.cmacGenerate e rd ra n {}) s (fun t => (t.engine e).rg rd = 2 ∧ (t.engine e).dat = g.dat) ∧
      Does (.cmacVerify e rd ra n {}) s (fun t => (t.engine e).rg rd = 2 ∧ (t.engine e).kv = g.kv)) ∧
    (usable → 16 * n.toNat < len →
      Does (.cmacGenerate e rd ra n {}) s (fun t => (t.engine e).rg rd = 3 ∧ (t.engine e).dat = g.dat) ∧
      Does (.cmacVerify e rd ra n {}) s (fun t => (t.engine e).rg rd = 3 ∧ (t.engine e).kv = g.kv)) ∧
    (usable → len ≤ 16 * n.toNat → Does (.cmacGenerate e rd ra n { mismatch := true }) s (fun t =>
        (t.engine e).rg rd = 2 ∧ (t.engine e).dat = g.dat ∧ t.rbit .CRY_EVENT 0 = true) ∧
      Does (.cmacVerify e rd ra n { mismatch := true }) s (fun t =>
        (t.engine e).rg rd = 2 ∧ (t.engine e).kv = g.kv ∧ t.rbit .CRY_EVENT 0 = true))

/-- R298, R309, R310: PUT and VRD. PUT FN 0 asks only destinations that KP permits, counts the others PUT_DENIED and gives in
rd the mask of those that took the frame; PUT FN 1 hands the item to K7 with KV as its VERIFIED; an item longer than 16 × N is
not sent and is counted PUT_LEN; a VRD answers its hook request once. Completes: putSend, putHandoff, vrd. -/
def Obligations.KelpiePutAndVerdict : Prop :=
  ∀ (s : State) (e rd ra : Fin 16) (n : BitVec 8), Runs s e → n ≠ 0 →
    let g := s.engine e
    let a := (g.rg ra).toNat
    let len := leNat (g.bytes (a + 8) 2) 0 2 % 4096
    let item := g.bytes a (32 + len)
    let dst := leNat item 28 4 % 2 ^ 28
    a + 32 + len ≤ 8192 →
    (e.val ≤ 7 → len ≤ 16 * n.toNat → g.kp &&& dst = 0 → rd.val ≠ 0 → Does (.putSend e rd ra n) s (fun t =>
      (t.engine e).rg rd = 0 ∧ (t.engine e).used = g.used + 8 + n.toNat ∧
      t.ctr (.klp e .PUT_DENIED) = s.ctr (.klp e .PUT_DENIED) + BitVec.ofNat 64 (maskCount dst 28) ∧
      t = { s with out := t.out, eng := t.eng, ctrs := t.ctrs })) ∧
    (∀ c : Fin 8, e.val ≤ 7 → len ≤ 16 * n.toNat → g.kp &&& dst = 2 ^ c.val → rd.val ≠ 0 → s.twin.safe = false →
      protoTakes (s.can c).proto (itemFrame item) = true → ((itemFrame item).kind = 1 → c.val < 2) → (s.can c).busoff = false → (s.can c).tx.length < 32 →
      ((s.can c).tx.map (fun x => frameBytes x.frame)).sum + frameBytes (itemFrame item) ≤ (if c.val < 2 then 16384 else 4096) →
      Does (.putSend e rd ra n) s (fun t =>
        (t.engine e).rg rd = 2 ^ c.val ∧
        (t.can c).tx = (s.can c).tx ++ [{ frame := itemFrame item, beat := s.beat }] ∧
        (∀ k, k ≠ c.val → t.can k = s.can k))) ∧
    (e.val ≤ 6 → len ≤ 16 * n.toNat → (s.engine 7).en = true → (s.engine 7).faulted = false → (s.engine 7).handoff.length < 64 →
      Does (.putHandoff e rd ra n) s (fun t =>
        (∃ it, (t.engine 7).handoff = (s.engine 7).handoff ++ [it] ∧ it.verified = g.kv ∧ it.bytes.length = 32 + len ∧
          byteAt it.bytes 26 = (if g.kv then 1 else 0) ∧ it.bytes.drop 32 = item.drop 32) ∧
        (t.engine e).used = g.used + 8 + n.toNat ∧ t = { s with out := t.out, eng := t.eng })) ∧
    (e.val ≤ 6 → 16 * n.toNat < len →
      Does (.putSend e rd ra n) s (fun t => t.ctr (.klp e .PUT_LEN) = s.ctr (.klp e .PUT_LEN) + 1 ∧
        t = { s with out := t.out, eng := t.eng, ctrs := t.ctrs }) ∧
      Does (.putHandoff e rd ra n) s (fun t => t.ctr (.klp e .PUT_LEN) = s.ctr (.klp e .PUT_LEN) + 1 ∧
        (t.engine 7).handoff = (s.engine 7).handoff)) ∧
    (8 ≤ e.val → e.val ≤ 11 → g.run = .event 3 →
      (∀ it rq, g.answered = false → g.item = some it → it.hook = some rq → s.heldOf rq.frame = none →
        Does (.vrd e rd) s (fun t =>
          (t.engine e).answered = true ∧ (t.engine e).hookOpen = g.hookOpen.erase rq ∧ (t.engine e).used = g.used + 2 ∧
          (rq ∉ g.hookOpen → t.ctr (.klp e .VRD_LATE) = s.ctr (.klp e .VRD_LATE) + 1))) ∧
      (g.answered = true → Does (.vrd e rd) s (fun t =>
        (t.engine e).used = g.used + 2 ∧ (∀ k, (t.engine e).rg k = g.rg k) ∧ (t.engine e).hookOpen = g.hookOpen ∧
        OnlyEngine s t e)))

/-- R311, R418, R456: SYS: a KLP_USER record, a trigger of the Retriever, a user counter, KLP_MBOX_OUT, a request to Bugle.
Completes: sysEvent, sysRecTrig, sysCount, sysMboxOut, sysBugle. -/
def Obligations.KelpieSystemFunctions : Prop :=
  ∀ (s : State) (e rd : Fin 16), Runs s e →
    let g := s.engine e
    let v := g.rg rd
    Does (.sysEvent e rd) s (fun t =>
      (∃ r : EvRec, t.hif.evNew = s.hif.evNew ++ [r] ∧ r.code = 0x71 ∧ r.src = e ∧ r.detail = v.toNat ∧
        r.beat = s.beat.toNat % 2 ^ 32) ∧ (t.engine e).used = g.used + 2 ∧ t = { s with out := t.out, eng := t.eng, hif := t.hif }) ∧
    Does (.sysCount e rd) s (fun t =>
      (∀ k : KlpCtr, t.ctr (.klp e k) =
        s.ctr (.klp e k) + (if k = [KlpCtr.USER0, .USER1, .USER2, .USER3].getD (v.toNat % 4) .USER0 then 1 else 0)) ∧
      (t.engine e).used = g.used + 2 ∧ t = { s with out := t.out, eng := t.eng, ctrs := t.ctrs }) ∧
    Does (.sysMboxOut e rd) s (fun t =>
      t.reg .KLP_MBOX_OUT e = v ∧ t.rbit .KLP_ENG_EVENT 1 e = true ∧ (t.engine e).used = g.used + 2) ∧
    (e = 7 ∨ 14 ≤ e.val →
      (s.ret.mode = .recording → Does (.sysRecTrig e rd) s (fun t =>
        t.ret.mode = .post ∧ t.ret.source = 3 ∧ t.ret.trig = s.now0)) ∧
      (s.ret.mode = .idle → Does (.sysRecTrig e rd) s (fun t => t.ret = s.ret ∧ OnlyEngine s t e)) ∧
      (s.ret.mode = .frozen → Does (.sysRecTrig e rd) s (fun t => t.ret = s.ret ∧ t.rbit .REC_EVENT 3 = true))) ∧
    (e = 12 ∨ e = 13 → fld v 0 4 = 1 → fld v 4 2 ≠ 0 → Does (.sysBugle e rd) s (fun t =>
      t.bug = { s.bug with reqNext := some (fld v 4 2, false) } ∧ (t.engine e).used = g.used + 2 ∧
      t = { s with out := t.out, eng := t.eng, bug := t.bug }))

/-- R293, R298, R318, R319, R320, R322, R351: what reaches an engine from outside. A served write of KLP_MBOX_IN queues a
MAILBOX event on an engine whose role has that class; RESTART is noted for the boundary; the loader's GO is taken while no load
is in progress and begins with its fetch, which waits while the device may not issue DMA, CANCEL ends a load, and a GO during
one is refused; a fault of an engine's memories shows its cause and PC; at the end of the check an image is refused with its
cause and address, is late, or waits for the boundary in the second banks. R158, R265, R270, R295, R297, R320: the runs of the
engines. A hook request that has waited its time leaves the queue, and the others stay; the shipped programs take the frame of
a controller or channel that has waited longest, counted NO_ROUTE where no entry matches it, and K7's a hand-off, which finds
no route; at the end of a run an engine whose routine has ended idles until the next beat, its busy time shows, and its classes
still pending are counted DEFERRED. Completes: engineFault, restart, loadGo, loadCancel, loadCheckDone, mboxIn, hookTimeout,
eventRoutine, kelpieRunEnd. -/
def Obligations.KelpieSupervision : Prop :=
  (∀ (s : State) (e : Fin 16) (w : Word) (slabs : List SlabRead),
    let u := seqStep s
    (Served s .KLP_MBOX_IN e → Does (.mboxIn e w) s (fun t =>
      t.reg .KLP_MBOX_IN e = w ∧
      (t.engine e).mailbox = (s.engine e).mailbox ++
        (if (7 ≤ e.val ∧ e.val ≤ 11) ∨ 14 ≤ e.val then [{ bytes := leBytes w.toNat 4 }] else []) ∧
      (∀ k, k ≠ e.val → t.engine k = s.engine k) ∧ t = { s with out := [], eng := t.eng, regs := t.regs })) ∧
    (Served s .KLP_ENG_CMD e → Does (.restart e) s (fun t => t.engine e = { s.engine e with restart := true } ∧
      (∀ k, k ≠ e.val → t.engine k = s.engine k) ∧ t = { u with out := [], eng := t.eng })) ∧
    (Served s .KLP_LOAD_CMD 0 →
      (s.loader.busy = true → Does .loadCancel s (fun t =>
        t.loader = { s.loader with state := .cancelled } ∧ (t.engine s.loader.eng).second = none ∧
        (∀ k, k ≠ s.loader.eng → t.engine k = s.engine k))) ∧
      (s.loader.busy = false → Does .loadCancel s (· = { u with out := [] })) ∧
      (s.loader.busy = false → Does (.loadGo w slabs) s (fun t =>
        t.loader.state = (if s.dmaOk then .check else .fetch) ∧ t.loader.eng = fld w 0 4 ∧ t.eng = s.eng ∧
        t.loader.atBeat = s.rbit .KLP_LOAD_BEAT_HI 31 ∧ t.rbit .KLP_LOAD_STATUS 3 = false)) ∧
      (s.loader.busy = true → bit w 9 = false → Does (.loadGo w slabs) s (fun t =>
        t.loader = s.loader ∧ t.rbit .KLP_LOAD_STATUS 3 = true))) ∧
    (s.dOn = true →
      (∀ (cause : Fin 8) (pc : BitVec 12), (s.engine e).run ≠ .idle → (s.engine e).faulted = false → 1 ≤ cause.val → cause.val ≤ 6 →
        Does (.engineFault e cause pc) s (fun t => (t.engine e).run = .idle ∧
          t.reg .KLP_ENG_STATUS e = BitVec.ofNat 32 (cause.val * 16 + pc.toNat * 256) ∧ t.rbit .KLP_ENG_EVENT 0 e = true)) ∧
      (s.loader.state ≠ .check → Does .loadCheckDone s (· = { s with out := [] })) ∧
      (let l := s.loader
       (l.state = .check →
         (∀ code a, imgRefusal l.eng l.slabBad l.bytes = some (code, a) → code < 16 → a < 4096 →
           Does .loadCheckDone s (fun t => t.loader.state = .refused ∧ t.rfld .KLP_LOAD_STATUS 8 4 = code ∧
             t.rfld .KLP_LOAD_STATUS 16 12 = a ∧ t.eng = s.eng)) ∧
         (imgRefusal l.eng l.slabBad l.bytes = none →
           (l.atBeat = true → passed l.beat s.beat = true → Does .loadCheckDone s (fun t =>
             t.loader.state = .late ∧ t.eng = s.eng)) ∧
           (l.atBeat = false ∨ passed l.beat s.beat = false → Does .loadCheckDone s (fun t => t.loader.state = .pending ∧
             t.engine l.eng = { s.engine l.eng with second := some (imgOf l.bytes) } ∧
             (∀ k, k ≠ l.eng → t.engine k = s.engine k)))))))) ∧
  (∀ (s : State) (rep rep1 : CipherReport), s.dOn = true →
    (∀ e : Fin 4,
      let late := fun (rq : HookReq) => passed (rq.queued + BitVec.ofNat 48 (s.rfld .FW_HOOK_CFG 8 4 e)) s.beat
      Does (.hookTimeout e) s (fun t =>
        (∀ rq, rq ∈ (t.engine (8 + e)).hookOpen ∨ rq ∈ (t.engine (8 + e)).hookPart → late rq = false) ∧
        ((∀ rq, rq ∈ (s.engine (8 + e)).hookOpen ∨ rq ∈ (s.engine (8 + e)).hookPart → late rq = false) → t = { s with out := [], eng := t.eng } ∧
          (t.engine (8 + e)).hookOpen = (s.engine (8 + e)).hookOpen ∧ (t.engine (8 + e)).hookPart = (s.engine (8 + e)).hookPart) ∧
        (∀ rq, (s.engine (8 + e)).hookOpen = [rq] → (s.engine (8 + e)).hookPart = [] → late rq = true →
          t.held = (hookAnswer s.quiet rq (.inr .HOOK_TMO)).held ∧ t.ctrs = (hookAnswer s.quiet rq (.inr .HOOK_TMO)).ctrs))) ∧
    (∀ (e : Fin 16) img k x b, (s.engine e).image = some img → img.shipped = true → s.mayAdmit e = true → (s.engine e).admits img 1 = true →
      e.val ≤ 4 → s.rbit .GW_CTRL 0 = true → s.rxNext e = some (k, x) → (s.time.cnt - x.at_).toNat * 32 / 125 < 65535 →
      s.answering = some b → x.frame.kind < 4 →
      (let it := frameItem x.frame k (s.age x.at_) 0 0 false 0
       (s.plane b).fltFind (itemFrame it) k 0 = none) →
      Does (.eventRoutine ⟨e, rep, rep1⟩) s (fun t =>
        t.ctr (.gwsrc k .NO_ROUTE) = s.ctr (.gwsrc k .NO_ROUTE) + 1 ∧
        SMap.get 0 (t.engine e).admitted 1 = SMap.get 0 (s.engine e).admitted 1 + 1 ∧
        (∀ c : Fin 8, c.val = k → (t.can c).rx = (s.can c).rx.drop 1) ∧ (∀ l : Fin 4, 8 + l.val = k → (t.linc l).rx = (s.linc l).rx.drop 1) ∧
        t = { s with out := [], eng := t.eng, gw := t.gw, ctrs := t.ctrs })) ∧
    (∀ img it rest, (s.engine 7).image = some img → img.shipped = true → s.mayAdmit 7 = true → (s.engine 7).admits img 4 = true →
      (s.engine 7).hookPart = [] → (s.engine 7).handoff = it :: rest →
      Does (.eventRoutine ⟨7, rep, rep1⟩) s (fun t =>
        (t.engine 7).handoff = rest ∧ t.ctr (.gwsrc it.src .NO_ROUTE) = s.ctr (.gwsrc it.src .NO_ROUTE) + 1 ∧
        SMap.get 0 (t.engine 7).admitted 4 = SMap.get 0 (s.engine 7).admitted 4 + 1)) ∧
    (∀ e : Fin 16, s.mayAdmit e = false → Does (.eventRoutine ⟨e, rep, rep1⟩) s (· = { s with out := [] })) ∧
    (∀ (e : Fin 16) img, (∀ k : Fin 16, k ≠ e → (s.engine k).image = none) → (s.engine e).image = some img →
      img.shipped = true ∨ (s.engine e).run = .idle →
      (s.engine e).ended = false → (s.engine e).en = true → (s.engine e).faulted = false → (s.engine e).halted = false →
      Does .kelpieRunEnd s (fun t =>
        let n := ((List.range 8).filter (s.stillPending e)).length
        (t.engine e).ended = true ∧ (t.engine e).run = .idle ∧ (t.engine e).handoff = (s.engine e).handoff ∧
        (∀ k : Fin 16, k ≠ e → t.engine k = s.engine k) ∧ (n ≠ 0 → t.rbit .KLP_ENG_EVENT 3 e = true) ∧
        (img.shipped = false → t.reg .KLP_ENG_BUSY e = BitVec.ofNat 32 (min (s.engine e).used 3840)) ∧
        t.ctr (.klp e .DEFERRED) = s.ctr (.klp e .DEFERRED) + BitVec.ofNat 64 n)))

/-! ### Time (chapter 11) -/

/-- R330: a read of TIME_CNT_LO latches the upper half of the same counter value into TIME_CNT_HI, whose read returns it.
Completes: rcRegisterRead, timeCntLoRead. -/
def Obligations.TimeCounterRead : Prop :=
  ∀ s : State, s.dOn = true →
    Does .timeCntLoRead s (fun t =>
      t.out = [.read (s.time.cnt.truncate 32)] ∧ t.time = { s.time with cntHi := (s.time.cnt >>> 32).truncate 32 } ∧
      t = { s with out := t.out, time := t.time }) ∧
    (∀ acc : BusRead, s.hostUp = true → acc.addr.toNat = Reg.TIME_CNT_HI.addr 0 0 → acc.be = 0xF → acc.dws = 1 →
      s.stopped acc.addr.toNat = false → Does (.rcRegisterRead acc) s (fun t => t = { s with out := [.read s.time.cntHi] }))

/-- R327, R328, R329, R337, R351: a served write of TIME_DOM_CMD to a domain that is not Shepherd's. Its commands act in the
order RATE, ADJ, SET at the present instant, from which the domain runs at the staged rate (limited on domain 0), its time
moved by the staged adjustment or set to the staged time; on domain 0 the step goes into E; the other domains keep theirs. A
command to a domain of Shepherd's is flagged and changes no time. Completes: applyRate, applyAdj, applySet. -/
def Obligations.TimeApplyCommands : Prop :=
  ∀ (s : State) (d : Fin 4) (w x : Word) (i : Instr), Served s .TIME_DOM_CMD d →
    (i = .applyRate d w ∧ x = setBit w 0 true) ∨ (i = .applyAdj d w ∧ x = setBit w 1 true) ∨ (i = .applySet d w ∧ x = setBit w 2 true) →
    let o := s.domain d
    let now := o.at s.time.cnt
    let r := (s.reg .TIME_DOM_RATE d).toInt
    let a := (BitVec.ofNat 64 (s.reg64 .TIME_DOM_ADJ_LO .TIME_DOM_ADJ_HI d)).toInt * 65536
    let v : Int := (s.reg64 .TIME_DOM_SET_LO .TIME_DOM_SET_HI d : Int) * 65536
    let new := if bit x 2 then v else if bit x 1 then now + a else now
    (s.rbit .TIME_DOM_CFG 0 d = false → Does i s (fun t =>
      (t.domain d).rate = (if bit x 0 then (if d = 0 then max (-549755814) (min 549755814 r) else r) else o.rate) ∧
      (t.domain d).ta = new ∧ (t.domain d).ca = s.time.cnt ∧
      (t.domain d).seq = (o.seq + (if bit x 0 then 1 else 0) + (if bit x 1 then 1 else 0) + (if bit x 2 then 1 else 0)) % 256 ∧
      t.time.err = (if d = 0 then s.time.err + (new - now) * 10 else s.time.err) ∧
      (d = 0 → bit x 0 = true → 549755814 < r ∨ r < -549755814 → t.rbit .TIME_EVENT 1 = true) ∧
      ∀ k, k ≠ d.val → t.domain k = s.domain k)) ∧
    (s.rbit .TIME_DOM_CFG 0 d = true → Does i s (fun t => t.time = s.time ∧ t.rbit .TIME_EVENT 2 = true))

/-- R333, R334, R255: Shepherd's servo takes sync information for a domain it has been given: it locks the domain, stages its
rate and applies it, with a step only for an offset above 1 µs or a new grandmaster; where the device is grandmaster itself the
domain is locked and keeps its time; either way Shepherd relays time, but not in the safe state. Information that it does not
take changes nothing. When sync messages have been missing for three intervals the domain is unlocked and keeps its rate and
its time; a grandmaster stays locked. Completes: gptpSync, syncLoss. -/
def Obligations.TimeSynchronisation : Prop :=
  ∀ (s : State) (d : Fin 4) (x : GptpSync), s.dOn = true →
    let o := s.domain d
    let step := x.gmChange = true ∨ x.offset.toInt < -1000 ∨ 1000 < x.offset.toInt
    (s.rbit .TIME_DOM_CFG 0 d = true → s.clk.shepDown = false →
      (x.own = false → s.ptpTakes d x = true → Does (.gptpSync d x) s (fun t =>
        (t.domain d).locked = true ∧ (t.domain d).gm = false ∧ t.reg .TIME_DOM_RATE d = x.rate ∧ (t.domain d).ca = s.time.cnt ∧
        (t.domain d).syncAt = t.time.cnt ∧
        (¬ step → (t.domain d).ta = o.at s.time.cnt) ∧ (step → (t.domain d).ta = o.at s.time.cnt + x.offset.toInt * 65536) ∧
        (t.domain d).syncSeq = (if s.twin.safe then o.syncSeq else (o.syncSeq + 1) % 65536) ∧
        ∀ k, k ≠ d.val → t.domain k = s.domain k)) ∧
      (x.own = true → s.ptpOwn d = true → Does (.gptpSync d x) s (fun t =>
        (t.domain d).locked = true ∧ (t.domain d).gm = true ∧ (t.domain d).ta = o.ta ∧ (t.domain d).ca = o.ca ∧ (t.domain d).rate = o.rate ∧
        (∀ k, k ≠ d.val → t.domain k = s.domain k) ∧ t.time.cnt = s.time.cnt))) ∧
    (s.rbit .TIME_DOM_CFG 0 d = false ∨ s.clk.shepDown = true ∨ (x.own = true ∧ s.ptpOwn d = false) ∨ (x.own = false ∧ s.ptpTakes d x = false) →
      Does (.gptpSync d x) s (· = { s with out := [] })) ∧
    (s.rbit .TIME_DOM_CFG 0 d = true → s.clk.shepDown = false →
      (o.gm = false → 3 * 312500000 ≤ (s.time.cnt - o.syncAt).toNat * 2 ^ s.rfld .TIME_DOM_CFG 16 3 d → Does (.syncLoss d) s (fun t =>
        t.domain d = { o with locked := false } ∧ (∀ k, k ≠ d.val → t.domain k = s.domain k) ∧
        t = { s with out := [], time := { s.time with dom := t.time.dom } })) ∧
      (o.gm = true → Does (.syncLoss d) s (· = { s with out := [] })))

/-- R331, R346, R351: a served TAKE latches the counter, the beat and every domain at one instant, and a CAP FIFO is read head
first: the low word latches the head, the high word removes it; an empty FIFO reads a value that the manual does not state, and
stays empty. R351, R514: by a served write a snapshot is asked for at the next boundary or at a named beat, and CANCEL
withdraws it. Completes: timeCapFifoLoRead, timeCapFifoHiRead, take, telSnapTake, telSnapCancel. -/
def Obligations.SnapshotsAndCaptures : Prop :=
  (∀ (s : State) (i : Fin 8),
    (Served s .TIME_SNAP_CMD 0 → Does .take s (fun t =>
      t.time.snap.cnt = s.time.cnt ∧ t.time.snap.beat = s.beat ∧ t.time.snap.valid = true ∧
      t.time.snap.seq = (s.time.snap.seq + 1) % 256 ∧ (∀ d : Fin 4, t.time.snap.dom.getD d 0 = (s.domain d).ns s.time.cnt) ∧
      t = { seqStep s with out := [], time := { s.time with snap := t.time.snap } })) ∧
    (s.dOn = true →
      (∀ x f rest, (s.cap i).fifo = (x, f) :: rest →
        Does (.timeCapFifoLoRead i) s (fun t =>
          t.out = [.read (x.truncate 32)] ∧ (t.cap i).fifo = (s.cap i).fifo ∧ (t.cap i).latch = some x ∧
          (∀ k, k ≠ i.val → t.cap k = s.cap k) ∧ t = { s with out := t.out, time := t.time }) ∧
        Does (.timeCapFifoHiRead i) s (fun t =>
          t.out = [.read ((((s.cap i).latch.getD x) >>> 32).truncate 32)] ∧ (t.cap i).fifo = rest ∧ (t.cap i).latch = none ∧
          (∀ k, k ≠ i.val → t.cap k = s.cap k) ∧ t = { s with out := t.out, time := t.time })) ∧
      ((s.cap i).fifo = [] →
        Does (.timeCapFifoLoRead i) s (fun t => ∃ v, t = { s with out := [.read v], free := t.free }) ∧
        Does (.timeCapFifoHiRead i) s (fun t => ∃ v, t = { s with out := [.read v], free := t.free })))) ∧
  (∀ (s : State) (w : Word), Served s .TEL_SNAP_CMD 0 →
    (bit w 1 = false → Does (.telSnapTake w) s (· = { seqStep s with out := [], snapAt := some none })) ∧
    (bit w 1 = true → Does (.telSnapTake w) s
      (· = { seqStep s with out := [], snapAt := some (some (BitVec.ofNat 48 (s.reg64 .TEL_SNAP_AT_LO .TEL_SNAP_AT_HI))) })) ∧
    Does .telSnapCancel s (· = { seqStep s with out := [], snapAt := none }))

/-- R341, R342, R345, R346: an enabled comparator whose timer has reached its instant fires once and disables itself, and
before it does nothing; an armed TRIG channel starts its pulse at S_k and ends it WIDTH later, and in the safe state counts no
pulse; an accepted CAP edge enters the FIFO, or is dropped and flagged when 16 stamps wait. Completes: comparatorFire,
trigEdge, capEdge. -/
def Obligations.TimeComparatorTrigCap : Prop :=
  ∀ s : State, s.dOn = true →
    (∀ m : Fin 32,
      let t := s.rfld .TIME_CMP_CFG 1 3 m
      let at_ : Int := (s.reg64 .TIME_CMP_T_LO .TIME_CMP_T_HI m : Int) * 65536
      s.rbit .TIME_CMP_CFG 0 m = true → t ≤ 4 →
      (at_ ≤ s.timer t → Does (.comparatorFire m) s (fun t =>
        t.rbit .TIME_CMP_EVENT m = true ∧ t.rbit .TIME_CMP_CFG 0 m = false ∧ t.time = s.time)) ∧
      (s.timer t < at_ → Does (.comparatorFire m) s (· = { s with out := [] }))) ∧
    (∀ m : Fin 32, s.rbit .TIME_CMP_CFG 0 m = false ∨ 4 < s.rfld .TIME_CMP_CFG 1 3 m → Does (.comparatorFire m) s (· = { s with out := [] })) ∧
    (∀ k : Fin 16,
      let v := s.trig k
      let now := s.timer (s.trigTimer k) * 65536
      let width : Int := (s.reg .TIME_TRIG_WIDTH k).toNat * 2 ^ 32
      v.armed = true → s.trigTimer k ≤ 4 →
      (v.high = false → (s.trigStart k v.k : Int) ≤ now → Does (.trigEdge k) s (fun t =>
        (t.trig k).high = true ∧ (t.trig k).k = v.k ∧
        (t.trig k).pulses = (if s.twin.safe then v.pulses else (v.pulses + 1) % 65536) ∧ (∀ j, j ≠ k.val → t.trig j = s.trig j) ∧
        t = { s with out := [], time := t.time })) ∧
      (v.high = true → (s.trigStart k v.k : Int) + width ≤ now → Does (.trigEdge k) s (fun t =>
        (t.trig k).high = false ∧ (t.trig k).k = v.k + 1 ∧ (t.trig k).armed = !s.rbit .TIME_TRIG_CFG 11 k ∧
        (∀ j, j ≠ k.val → t.trig j = s.trig j) ∧ t = { s with out := [], time := t.time }))) ∧
    (∀ k : Fin 16, (s.trig k).armed = false ∨ 4 < s.trigTimer k → Does (.trigEdge k) s (· = { s with out := [] })) ∧
    (∀ (i : Fin 8) (falling : Bool) (x : Wide),
      s.rbit .TIME_CAP_CFG 0 i = false ∨ s.rbit .TIME_CAP_CFG (if falling then 2 else 1) i = false → Does (.capEdge i falling x) s (· = { s with out := [] })) ∧
    (∀ (i : Fin 8) (falling : Bool) (x : Wide), s.rbit .TIME_CAP_CFG 0 i = true →
      s.rbit .TIME_CAP_CFG (if falling then 2 else 1) i = true →
      ((s.cap i).fifo.length < 16 → Does (.capEdge i falling x) s (fun t =>
        (t.cap i).fifo = (s.cap i).fifo ++ [(x, falling)] ∧ (∀ k, k ≠ i.val → t.cap k = s.cap k))) ∧
      (16 ≤ (s.cap i).fifo.length → Does (.capEdge i falling x) s (fun t =>
        t.cap i = s.cap i ∧ t.ctr (.cap i) = s.ctr (.cap i) + 1)))

/-! ### Registers (chapters 12, 13, 17, 19) -/

/-- R5, R6, R351, R480: a served host write to a register without an effect of its own. A read-write register takes the
writable bits of the value within the limits of its fields; a configuration record takes it into the prepared bank only; W1C
and W1S clear and set the bits written as 1; read-only, write-only and read-clear registers ignore it. No other register
changes but HIF_BAR0_SEQ, which counts the write. R4, R351, R379: a host write that is not one whole aligned DW, or names a
reserved offset, a stopped clock or a locked register, changes no register but the count of writes and what logs it: an entry
with its cause, its number and the beat. A write to what the part lacks is only counted. The same holds of every command row
that is the write of one register; while the host cannot reach the device none of them does anything. Completes: registerWrite.
-/
def Obligations.HostWrites : Prop :=
  (∀ (s : State) (acc : BusWrite) (r : Reg) (i j : Nat), s.dOn = true → s.hostUp = true →
    Reg.at? (keepAlias acc.addr.toNat) = some (r, i, j) → s.writeRefusal acc.addr.toNat acc.be acc.dws = none →
    s.partLacks r i = false → classLacks r i = false → cryReg r = false → (∀ x w v, writeCmd x r i w v = none) →
    r.addr i j ≠ Reg.HIF_BAR0_SEQ.addr 0 0 →
    let w := acc.data
    let old := s.reg r i j
    let rest := fun (t : State) =>
      t.reg .HIF_BAR0_SEQ = s.reg .HIF_BAR0_SEQ + 1 ∧
      ∀ q k l, q.addr k l ≠ r.addr i j → q.addr k l ≠ Reg.HIF_BAR0_SEQ.addr 0 0 → t.reg q k l = s.reg q k l
    (r.row.acc = .rw ∨ r.row.acc = .rwk ∨ r.row.acc = .rwl → r.row.cfg = false → Does (.registerWrite acc) s (fun t =>
      t.reg r i j = storeForm s r i w ∧ rest t ∧ t = { s with out := [], regs := t.regs })) ∧
    (r.row.acc = .rw ∨ r.row.acc = .rwk ∨ r.row.acc = .rwl → r.row.cfg = true → s.upd.cfg = none →
      Does (.registerWrite acc) s (fun t => t.preg r i j = storeForm s r i w ∧ t.reg r i j = old ∧ rest t)) ∧
    (r.row.acc = .w1c → Does (.registerWrite acc) s (fun t =>
      t.reg r i j = old &&& ~~~(w &&& r.row.mask) ∧ rest t ∧ t = { s with out := [], regs := t.regs })) ∧
    (r.row.acc = .w1s → Does (.registerWrite acc) s (fun t =>
      t.reg r i j = (old ||| (w &&& r.row.mask)) ∧ rest t ∧ t = { s with out := [], regs := t.regs })) ∧
    (r.row.acc = .ro ∨ r.row.acc = .wo ∨ r.row.acc = .rc → Does (.registerWrite acc) s (fun t =>
      t.reg r i j = old ∧ rest t ∧ t = { s with out := [], regs := t.regs }))) ∧
  (∀ (s : State) (acc : BusWrite), s.dOn = true →
    let a := acc.addr.toNat
    (s.hostUp = false → Does (.registerWrite acc) s (· = { s with out := [] }) ∧
      ∀ c r i, barReg c = some (r, i) → Does c s (· = { s with out := [] })) ∧
    (s.hostUp = true →
    let logged := fun (cause : Nat) => Does (.registerWrite acc) s (fun t =>
      t.hif.pwe = (if s.hif.pwe.length < 64 then s.hif.pwe ++ [[BitVec.ofNat 32 (15 + 256 * cause), BitVec.ofNat 32 a,
        s.reg .HIF_BAR0_SEQ + 1, BitVec.ofNat 32 s.beat.toNat]] else s.hif.pwe) ∧ (64 ≤ s.hif.pwe.length → t.rbit .WIN_EVENT 9 = true) ∧
      (∀ q k l, q.addr k l ≠ Reg.HIF_BAR0_SEQ.addr 0 0 → q.addr k l ≠ Reg.WIN_EVENT.addr 0 0 → q.addr k l ≠ Reg.WIN_PWE_STATUS.addr 0 0 →
        t.reg q k l = s.reg q k l) ∧
      t.rbit .WIN_EVENT 8 = true ∧ t = { s with out := [], regs := t.regs, hif := t.hif })
    (¬ (a % 4 = 0 ∧ acc.be = 0xF ∧ acc.dws = 1) → logged 5) ∧
    (a % 4 = 0 → acc.be = 0xF → acc.dws = 1 →
      (reserved a = true → logged 2) ∧
      (reserved a = false → s.lacks a = false → s.stopped a = true → logged 3) ∧
      (reserved a = false → s.lacks a = false → s.stopped a = false → s.locked a = true → logged 4) ∧
      (reserved a = false → s.lacks a = true → Does (.registerWrite acc) s (· = { seqStep s with out := [] }))) ∧
    (∀ (c : Instr) (r : Reg) (i : Nat), barReg c = some (r, i) →
      (s.regRefusal r i = some 0 → Does c s (· = { seqStep s with out := [] })) ∧
      (∀ k, s.regRefusal r i = some k → k ≠ 0 → Does c s (fun t =>
        (s.hif.pwe.length < 64 → t.hif.pwe = s.hif.pwe ++ [[BitVec.ofNat 32 (15 + 256 * k), BitVec.ofNat 32 (r.addr i 0 % 2 ^ 26),
          s.reg .HIF_BAR0_SEQ + 1, BitVec.ofNat 32 s.beat.toNat]]) ∧
        t.rbit .WIN_EVENT 8 = true ∧ t = { s with out := [], regs := t.regs, hif := t.hif })))))

/-- R224, R351, R511, R522: host reads. A read-clear register gives its value and is then 0; a reserved offset reads 0 and
changes nothing; a read that is not one whole aligned DW, or to a stopped clock, gives all ones and sets BAD_READ; a counter's
low word, live or of the snapshot, latches the high one, which a read of the high word gives; every other word of TEL reads as
its register does. While the host cannot reach the device nothing is read. Completes: rcRegisterRead, counterLowRead. -/
def Obligations.HostReads : Prop :=
  ∀ (s : State) (acc : BusRead), s.dOn = true →
    let a := acc.addr.toNat
    (s.hostUp = false → Does (.rcRegisterRead acc) s (· = { s with out := [] })) ∧
    (s.hostUp = true →
      let whole := a % 4 = 0 ∧ acc.be = 0xF ∧ acc.dws = 1
    (∀ (r : Reg) (i : Nat), r = .TM_Q_MAX_DEPTH ∨ r = .TM_Q_MAX_DELAY ∨ r = .KLP_ENG_MAX_BUSY → i < r.row.n1 → whole →
      a = r.addr i 0 → s.stopped a = false → s.partLacks r i = false → Does (.rcRegisterRead acc) s (fun t =>
        t.out = [.read (s.reg r i)] ∧ t.reg r i = 0 ∧
        (∀ q k l, q.addr k l ≠ r.addr i 0 → t.reg q k l = s.reg q k l) ∧ t = { s with out := t.out, regs := t.regs })) ∧
    (whole → reserved a = true → s.stopped a = false → Does (.rcRegisterRead acc) s (fun t => t = { s with out := [.read 0] })) ∧
    (¬ whole → Does (.rcRegisterRead acc) s (fun t =>
      t.out = [.read 0xFFFFFFFF] ∧ t.reg .HIF_BAD_READ_ADDR = BitVec.ofNat 32 a ∧ t.rbit .HIF_EVENT 3 = true ∧
      t = { s with out := t.out, regs := t.regs, hif := t.hif })) ∧
    (∀ off : BitVec 20, exec (.counterLowRead off) s =
      exec (.rcRegisterRead { addr := BitVec.ofNat 26 (0xF00000 + off.toNat), be := 0xF, dws := 1 }) s) ∧
    (∀ off : BitVec 20, off.toNat % 8 = 4 → isCounter off.toNat = true →
      Does (.counterLowRead off) s (· = { s with out := [.read (SMap.get 0 s.hiLatch off.toNat)] })) ∧
    (∀ off : BitVec 20, off.toNat % 8 = 0 → isCounter off.toNat = true →
      let v := if off.toNat < 0x80000 then SMap.get 0 s.ctrs off.toNat else SMap.get 0 s.snap (off.toNat - 0x80000)
      Does (.counterLowRead off) s (fun t =>
        t.out = [.read (v.truncate 32)] ∧ SMap.get 0 t.hiLatch (off.toNat + 4) = (v >>> 32).truncate 32 ∧
        (∀ k, k ≠ off.toNat + 4 → SMap.get 0 t.hiLatch k = SMap.get 0 s.hiLatch k) ∧
        t = { s with out := t.out, hiLatch := t.hiLatch })))

/-- R393: while an SA has VALID = 1, a write to its SSCI or SALT is discarded and one to its configuration changes VALID only;
with VALID = 0 the written bits are taken; a transmit NEXT_PN takes only a higher value. Completes: saWrite. -/
def Obligations.SecurityAssociationWrites : Prop :=
  ∀ (s : State) (acc : BusWrite) (r : Reg) (i j : Nat), s.dOn = true → s.hostUp = true →
    Reg.at? (keepAlias acc.addr.toNat) = some (r, i, j) → s.writeRefusal acc.addr.toNat acc.be acc.dws = none →
    s.partLacks r i = false → r.addr i j ≠ Reg.HIF_BAR0_SEQ.addr 0 0 →
    let w := acc.data &&& r.row.mask
    let old := s.reg r i j
    let cur := s.reg64 .CRY_TXSA_NEXT_PN_LO .CRY_TXSA_NEXT_PN_HI i j
    let becomes := fun (v : Word) => Does (.saWrite acc) s (fun t =>
      t.reg r i j = v ∧ (∀ q k l, q.addr k l ≠ r.addr i j → q.addr k l ≠ Reg.HIF_BAR0_SEQ.addr 0 0 → t.reg q k l = s.reg q k l))
    (r = .CRY_TXSA_CFG → s.rbit .CRY_TXSA_CFG 0 i j = false → becomes w) ∧
    (r = .CRY_TXSA_CFG → s.rbit .CRY_TXSA_CFG 0 i j = true → becomes (setBit old 0 (bit w 0))) ∧
    (r = .CRY_RXSA_CFG → s.rbit .CRY_RXSA_CFG 0 i j = true → becomes (setBit old 0 (bit w 0))) ∧
    (r = .CRY_TXSA_SSCI ∨ r = .CRY_TXSA_SALT0 ∨ r = .CRY_TXSA_SALT1 ∨ r = .CRY_TXSA_SALT2 →
      becomes (if s.rbit .CRY_TXSA_CFG 0 i j then old else w)) ∧
    (r = .CRY_RXSA_SSCI ∨ r = .CRY_RXSA_SALT0 ∨ r = .CRY_RXSA_SALT1 ∨ r = .CRY_RXSA_SALT2 →
      becomes (if s.rbit .CRY_RXSA_CFG 0 i j then old else w)) ∧
    (r = .CRY_TXSA_NEXT_PN_LO → becomes (if cur < cur / 2 ^ 32 * 2 ^ 32 + w.toNat then w else old)) ∧
    (r = .CRY_TXSA_NEXT_PN_HI → becomes (if cur < w.toNat * 2 ^ 32 + cur % 2 ^ 32 then w else old))

/-- R497, R498, R524, R541: LOCK is set; after it the debug port has no access to the registers, and before it reads 0 at a
reserved offset, and its access to a stopped clock hangs, as does one of Shepherd's, which after 1 ms is flagged; with four
accesses hung a further one waits. Any other debug access reads and writes as the fabric does: a write of a register without an
effect of its own takes the writable bits. Completes: hang, glbLock, debugAccess. -/
def Obligations.LockDebugAndHangs : Prop :=
  ∀ (s : State) (a : BitVec 26) (w : Word), s.dOn = true →
    (Served s .GLB_LOCK 0 → Does .glbLock s (fun t => t.rbit .GLB_LOCK 0 = true ∧
      (∀ q k l, q.addr k l ≠ Reg.GLB_LOCK.addr 0 0 → t.reg q k l = (seqStep s).reg q k l) ∧ t = { s with out := [], regs := t.regs })) ∧
    (s.rbit .GLB_LOCK 0 = true → ∀ wr, Does (.debugAccess wr a w) s (· = { s with out := [] })) ∧
    (s.rbit .GLB_LOCK 0 = false → s.clk.hung.length < 4 → reserved a.toNat = true → s.stopped a.toNat = false →
      Does (.debugAccess false a w) s (fun t => t = { s with out := [.read 0] })) ∧
    (s.rbit .GLB_LOCK 0 = false → s.clk.hung.length < 4 → s.stopped a.toNat = true → s.lacks a.toNat = false →
      Does (.debugAccess true a w) s (fun t =>
        t = { s with out := [], clk := { s.clk with hung := s.clk.hung ++ [(a.toNat, some w, s.time.cnt)] } }) ∧
      Does (.debugAccess false a w) s (fun t =>
        t = { s with out := [], clk := { s.clk with hung := s.clk.hung ++ [(a.toNat, none, s.time.cnt)] } })) ∧
    (s.rbit .GLB_LOCK 0 = false → 4 ≤ s.clk.hung.length → ∀ wr, Does (.debugAccess wr a w) s (· = { s with out := [.waits] })) ∧
    (∀ (r : Reg) (i j : Nat), s.rbit .GLB_LOCK 0 = false → s.clk.hung.length < 4 → s.stopped a.toNat = false →
      Reg.at? (keepAlias a.toNat) = some (r, i, j) → s.partLacks r i = false → classLacks r i = false → cryReg r = false →
      (∀ x w v, writeCmd x r i w v = none) → r.row.acc = .rw → r.row.cfg = false → Does (.debugAccess true a w) s (fun t =>
        t.reg r i j = storeForm s r i w ∧ (∀ q k l, q.addr k l ≠ r.addr i j → t.reg q k l = s.reg q k l) ∧
        t = { s with out := [], regs := t.regs })) ∧
    (s.stopped a.toNat = true → s.clk.hung.length < 4 → (∀ x ∈ s.clk.hung, x.1 ≠ a.toNat) → Does (.hang a) s (fun t =>
      t.rbit .CLK_EVENT 5 = true ∧ t.clk.hung.map (fun x => (x.1, x.2.1)) = s.clk.hung.map (fun x => (x.1, x.2.1)) ++ [(a.toNat, none)])) ∧
    (∀ x ∈ s.clk.hung, x.1 = a.toNat → 312500 ≤ (s.time.cnt - x.2.2).toNat → Does (.hang a) s (fun t =>
      t.rbit .CLK_EVENT 5 = true ∧ t.clk = s.clk))

/-! ### The safe state, resets and clocks (chapters 08 and 17) -/

/-- R254, R255, R257, R323, R502, R509: once READY, a doubt, three boundaries without a claim, a host's FORCE by a served write
and the failure of a clock monitor that is armed enter the safe state with their cause; cause 0 is none. Before READY a doubt
is kept for the end of phase 6, the first one met; in the safe state nothing is left to enter. R108, R257, R351: by a served
write with the key a leave of the safe state is refused for the causes 5 and 6 and while a monitor fails, else it begins; its
end with both self-tests failed leaves the device in the safe state, and with a plane passed forwarding begins again on that
plane, the preferred one if it passed; the other goes to RESYNC, or to FAILED. Completes: noClaim, safeStateEntry, hostForce,
clockMonitorFail, shepherdReset, safeLeave, safeLeaveResult. -/
def Obligations.SafeState : Prop :=
  (∀ (s : State), s.dOn = true →
    (s.twin.safe = false → s.clk.phase = 7 →
      (∀ cause : Fin 8, cause ≠ 0 → Does (.safeStateEntry cause) s (InSafe · cause)) ∧
      (3 ≤ s.twin.noclaim → Does .noClaim s (InSafe · 4)) ∧
      (s.twin.noclaim < 3 → Does .noClaim s (· = { s with out := [] })) ∧
      (∀ m : Fin 32, m ≠ 2 → s.monArmed m = true → Does (.clockMonitorFail m) s (InSafe · 2)) ∧
      (s.lockstepAgain = true → Does (.shepherdReset true) s (fun t => InSafe t 5 ∧ t.clk.shepDown = true)) ∧
      (Served s .TWIN_SAFE_CTRL 0 → ∀ w, fld w 0 16 = 0xC1EA → bit w 16 = false → Does (.hostForce w) s (InSafe · 7))) ∧
    (Served s .TWIN_SAFE_CTRL 0 → ∀ w, fld w 0 16 ≠ 0xC1EA ∨ bit w 16 = true → Does (.hostForce w) s (· = { seqStep s with out := [] })) ∧
    (s.twin.safe = false → s.clk.phase < 7 → ∀ cause : Fin 8, cause ≠ 0 → Does (.safeStateEntry cause) s (fun t =>
      t = { s with out := [], clk := { s.clk with doubt := if s.clk.doubt = 0 then cause.val else s.clk.doubt } })) ∧
    (∀ cause : Fin 8, s.twin.safe = true ∨ cause = 0 → Does (.safeStateEntry cause) s (· = { s with out := [] })) ∧
    (∀ m : Fin 32, m ≠ 2 → s.monArmed m = false → Does (.clockMonitorFail m) s (· = { s with out := [] }))) ∧
  (∀ (s : State) (w : Word) (aPass bPass : Bool),
    (Served s .TWIN_SAFE_CTRL 0 → s.twin.safe = true → s.twin.leaving = false → fld w 0 16 = 0xC1EA → bit w 17 = false →
      let ends := fun (result : Nat) (leaving : Bool) => Does (.safeLeave w) s (fun t =>
        t = { seqStep s with out := [], twin := { s.twin with result, leaving } })
      (s.twin.cause = 5 ∨ s.twin.cause = 6 → ends 3 false) ∧
      (s.twin.cause ≠ 5 → s.twin.cause ≠ 6 → s.monitorsOk = false → ends 2 false) ∧
      (s.twin.cause ≠ 5 → s.twin.cause ≠ 6 → s.monitorsOk = true → ends 1 true)) ∧
    (Served s .TWIN_SAFE_CTRL 0 → s.twin.safe = false ∨ s.twin.leaving = true ∨ fld w 0 16 ≠ 0xC1EA → bit w 17 = false →
      Does (.safeLeave w) s (· = { seqStep s with out := [] })) ∧
    (s.dOn = true → s.twin.safe = false ∨ s.twin.leaving = false → Does (.safeLeaveResult aPass bPass) s (· = { s with out := [] })) ∧
    (s.dOn = true → s.twin.safe = true → s.twin.leaving = true →
      (aPass = false → bPass = false → Does (.safeLeaveResult aPass bPass) s (fun t =>
        t = { s with out := [], twin := { s.twin with result := 4, leaving := false } })) ∧
      (aPass = true ∨ bPass = true → Does (.safeLeaveResult aPass bPass) s (fun t =>
        let pref := s.rbit .TWIN_CTRL 0
        let ok := fun (b : Bool) => if b then bPass else aPass
        let up := if ok pref then pref else !pref
        t.twin.safe = false ∧ t.twin.leaving = false ∧ t.twin.result = 0 ∧ t.twin.accepted = some up ∧ (t.plane up).mode = .active ∧
        (t.plane (!up)).mode = (if ok (!up) then .resync else .failed) ∧ t.bug.faultN = false ∧ t.gpioHold = none ∧ t.clk.phase = 7))))

/-- R254, R351, R504, R505, R510: Shepherd restarts and comes back; the reset of CLK_RST_CMD is due 10 µs after its key; a
D-die reset leaves the keep domain and starts again at phase 1 with its cause; RESET_N low holds the D-die, and its rise starts
it. Completes: ecuReset, clkRstCmd, resetN, powerOn, shepherdReset, shepherdRestartDone. -/
def Obligations.ResetLevels : Prop :=
  ∀ s : State,
    (s.dOn = true → (s.twin.safe && s.twin.cause == 5) = false →
      Does (.shepherdReset false) s (fun t =>
        t.clk.shepDown = true ∧ t.clk.phase = s.clk.phase ∧ t.twin = s.twin ∧
        t.rfld .GLB_SHEP_STATUS 8 8 = min 255 (s.rfld .GLB_SHEP_STATUS 8 8 + 1)) ∧
      (s.lockstepAgain = false → Does (.shepherdReset true) s (fun t =>
        t.clk.shepDown = true ∧ t.clk.shepLock = true ∧ t.twin = s.twin ∧
        t.rfld .GLB_SHEP_STATUS 8 8 = min 255 (s.rfld .GLB_SHEP_STATUS 8 8 + 1))) ∧
      (s.clk.shepDown = false → Does .shepherdRestartDone s (· = { s with out := [] })) ∧
      (s.clk.shepDown = true → Does .shepherdRestartDone s (fun t =>
        t.clk.shepDown = false ∧ t.clk.shepLock = false ∧ t = { s with out := [], clk := t.clk }))) ∧
    (Served s .CLK_RST_CMD 0 → ∀ w,
      (fld w 0 16 = 0xB007 → s.clk.rstAt = none → bit w 16 = true → Does (.clkRstCmd w) s (fun t =>
        t = { seqStep s with out := [], clk := { s.clk with rstAt := some (s.time.cnt + 3125) } })) ∧
      (fld w 0 16 ≠ 0xB007 ∨ s.clk.rstAt ≠ none ∨ bit w 16 = false → Does (.clkRstCmd w) s (· = { seqStep s with out := [] }))) ∧
    (s.dOn = true → s.shepUp = true → ∀ tester, Does (.ecuReset tester) s (fun t =>
      t.clk.phase = 1 ∧ t.reg .CLK_RST_CAUSE = 7 ∧ t.bug.faultN = true ∧ t.dOn = true ∧ t.twin = State.reset.twin ∧
      t.held = [] ∧ t.copies = [] ∧ t.out = [.uds tester.toNat 0])) ∧
    (s.dOn = true → s.shepUp = false → ∀ tester, Does (.ecuReset tester) s (· = { s with out := [] })) ∧
    (s.dOn = true → Does (.resetN true) s (fun t =>
      t.dOn = false ∧ t.clk.resetN = false ∧ t.bug.faultN = true ∧ t.bug.power = s.bug.power ∧ t.twin = State.reset.twin ∧
      ∀ r i j, t.reg r i j =
        if Reg.keptAddr (r.addr i j) && r.addr i j != 0x10100 then s.reg r i j else r.resetAt i j)) ∧
    (s.dOn = false → s.clk.resetN = false → s.bug.power = .active ∨ s.bug.power = .doze →
      Does (.resetN false) s (fun t =>
        t.dOn = true ∧ t.clk.resetN = true ∧ t.clk.phase = 1 ∧ t.reg .CLK_RST_CAUSE = 2 ∧ t.bug.faultN = true)) ∧
    (s.bug.power ≠ .off → Does .powerOn s (· = { s with out := [] })) ∧
    (s.bug.power = .off → Does .powerOn s (fun t =>
      t.dOn = s.clk.resetN ∧ t.bug = State.reset.bug ∧ t.twin = State.reset.twin ∧ t.clk.phase = 1 ∧
      t.reg .CLK_RST_CAUSE = 1 ∧ t.clk.resetN = s.clk.resetN))

/-- R495 to R497, R502, R504, R351: a served write of CLK_GATE stops the clocks of the bits set whose domains have no user, and
flags an attempt to stop one that has; a start lets the clocks of its bits run; the loss of the PCIe reference stops PCIE and
is flagged, its return starts it while PERST_N is high. R237, R475, R506 to R509: with no slot that verifies the boot loader
holds in phase 3; with a slot chosen the phases run to the end of phase 6, the preferred plane ACTIVE if it passed its
self-test; a keep domain that is not whole enters the safe state with cause 6. READY opens forwarding, releases FAULT_N and, at
the end of a BOOT start, raises counter 0 to the running image's SVN (R463), unless a doubt has been met since the start.
Completes: clockStop, clockStart, clockMonitorFail, pcieRefLost, pcieRefReturn, startup, ready. -/
def Obligations.ClocksAndStart : Prop :=
  (∀ s : State,
    (Served s .CLK_GATE 0 → ∀ w,
      Does (.clockStop w) s (fun t =>
        let asked := fun (k : Nat) => k ∈ gateBits ∧ s.hasGate k = true ∧ bit w k = true ∧ s.rbit .CLK_GATE k = false
        (∀ k, asked k → s.clkUsed k = false → t.rbit .CLK_GATE k = true ∧ t.clkRuns k = false) ∧
        (∀ k, asked k → s.clkUsed k = true → t.rbit .CLK_EVENT 3 = true) ∧
        (∀ k, ¬ asked k ∨ s.clkUsed k = true → t.rbit .CLK_GATE k = s.rbit .CLK_GATE k ∧ t.clkRuns k = s.clkRuns k) ∧
        t = { s with out := [], regs := t.regs, hif := t.hif }) ∧
      (s.clk.hung = [] → Does (.clockStart w) s (fun t =>
        let asked := fun (k : Nat) => k ∈ gateBits ∧ s.hasGate k = true ∧ bit w k = true ∧ s.rbit .CLK_GATE k = true
        (∀ k, asked k → t.rbit .CLK_GATE k = false ∧ t.clkRuns k = true) ∧
        (∀ k, ¬ asked k → t.rbit .CLK_GATE k = s.rbit .CLK_GATE k ∧ t.clkRuns k = s.clkRuns k) ∧
        t = { s with out := [], regs := t.regs }))) ∧
    (s.dOn = true →
      (s.clk.pcieRef = true →
        Does .pcieRefLost s (fun t => t.clk.pcieRef = false ∧ t.clkRuns 10 = false ∧ t.rbit .CLK_EVENT 2 = true) ∧
        Does (.clockMonitorFail 2) s (fun t => t.clk.pcieRef = false ∧ t.clkRuns 10 = false ∧ t.rbit .CLK_EVENT 2 = true)) ∧
      (s.clk.pcieRef = false → Does .pcieRefLost s (· = { s with out := [] })) ∧
      Does .pcieRefReturn s (fun t =>
        t.clk.pcieRef = true ∧ t.clkRuns 10 = !s.hif.perst ∧ t.rbit .CLK_MON_STATUS 2 = true ∧
        t = { s with out := [], clk := { s.clk with pcieRef := true }, regs := t.regs }))) ∧
  (∀ (s : State) (rep : StartupReport), s.dOn = true →
    let keepBad := s.keepFails rep
    let x := bootChoose (bootCopy (keepPhase s.quiet rep) rep) rep
    (s.clk.phase ≠ 1 → Does (.startup rep) s (· = { s with out := [] })) ∧
    (s.clk.phase = 1 → x.1 = none → Does (.startup rep) s (fun t =>
      t.clk.phase = 3 ∧ t.upd.bootHold = true ∧ t.twin = s.twin)) ∧
    (s.clk.phase = 1 → x.1.isSome = true → keepBad = false → s.clk.doubt = 0 → Does (.startup rep) s (fun t =>
      let pref := t.rbit .TWIN_CTRL 0
      t.clk.phase = 6 ∧ ((if pref then rep.bPass else rep.aPass) = true → (t.plane pref).mode = .active))) ∧
    (s.clk.phase = 1 → x.1.isSome = true → keepBad = false → s.clk.doubt ≠ 0 → Does (.startup rep) s (InSafe · s.clk.doubt)) ∧
    (s.clk.phase = 1 → x.1.isSome = true → keepBad = true → Does (.startup rep) s (InSafe · 6)) ∧
    (s.clk.phase ≠ 6 ∨ s.twin.safe = true → Does .ready s (· = { s with out := [] })) ∧
    (s.clk.phase = 6 → s.twin.safe = false →
      (s.clk.doubt = 0 → Does .ready s (fun t =>
        let u := { s with out := [], clk := { s.clk with phase := 7 }, bug := { s.bug with faultN := false } }
        let raise := s.upd.startKind = 1 ∧ s.reg .KEEP_CTR 0 < s.reg .UPD_FW_SVN
        (raise → t.reg .KEEP_CTR 0 = s.reg .UPD_FW_SVN ∧ (∀ n, n ≠ 0 → t.reg .KEEP_CTR n = s.reg .KEEP_CTR n) ∧
          t = { u with regs := t.regs, upd := t.upd }) ∧
        (¬ raise → t = u))) ∧
      (s.clk.doubt ≠ 0 → Does .ready s (InSafe · s.clk.doubt))))

/-! ### The twin decision planes (chapter 08) -/

/-- R231, R234, R238, R239, R249, R253, R254: a plane that finds a fatal error goes to SELFTEST, or to FAILED at its fourth
give-up within 2^20 beats, with claim 0x00; the other plane keeps its state (and, where it is the standby of a fallen ACTIVE
plane, takes over the outstanding generations and the flushes that wait), and acceptance follows the claims; the loss of the
ACTIVE plane begins the switchover gap and empties the copy queues. An uncorrectable error of the ACTIVE plane with no eligible
standby, or of the standby in the beat in which the other plane met one, enters the safe state; a plane in SELFTEST only counts
one, a plane in FAILED is not read. R128, R240: a table command that reads an entry with such an error completes with ECC (12).
R242, R246, R247, R252, R351, R471, R473: by a served write a swap is taken up only with an eligible standby, else refused and
flagged; a full self-test passed leads to RESYNC, one failed to FAILED, and in an ACTIVATE ends it or its last reload; at the
end of RESYNC the plane is STANDBY with the memory of the ACTIVE plane, and an ACTIVATE goes on; a record lost, or a queue
beyond its 64 KiB, makes the standby receive the whole state anew. Completes: giveUp, pipelineWatchdog, swap, selftestDone,
resyncEnd, desync. -/
def Obligations.TwinPlanes : Prop :=
  (∀ (s : State) (pl : Bool), s.dOn = true →
    let p := s.plane pl
    let o := s.plane (!pl)
    let recent := p.giveUps.filter (fun x => decide ((s.beat - x).toNat < 2 ^ 20))
    let gives := fun (c : Instr) => Does c s (fun t =>
      (t.plane pl).mode = (if 3 ≤ recent.length then .failed else .selftest) ∧ (t.plane pl).claim = 0 ∧
      t.plane (!pl) = (if s.actId = some pl ∧ o.mode = .standby then o.goOn p else o) ∧
      (s.actId = some pl → t.twin.switch = .gap false ∧ t.twin.exactQ = [] ∧ t.twin.lazyQ = []) ∧
      t.twin.accepted = if s.twin.safe then none else acceptedOf t.twin.a.claim t.twin.b.claim)
    (p.mode = .active ∨ p.mode = .standby ∨ p.mode = .resync → s.upd.act ≠ 4 →
      gives (.pipelineWatchdog pl) ∧ ∀ why, why ≠ .ecc → why ≠ .command → gives (.giveUp pl why)) ∧
    (p.mode = .selftest ∨ p.mode = .failed → Does (.pipelineWatchdog pl) s (· = { s with out := [] }) ∧
      ∀ why, why = .canary ∨ why = .parity ∨ p.mode = .failed → Does (.giveUp pl why) s (· = { s with out := [] })) ∧
    (p.mode = .selftest → ∀ why, why = .ecc ∨ why = .command → Does (.giveUp pl why) s (fun t =>
      t.ctr (.device .TABLE_CE) = s.ctr (.device .TABLE_CE) + 1 ∧ t = { s with out := [], ctrs := t.ctrs })) ∧
    (s.twin.safe = false → s.clk.phase = 7 →
      (s.actId = some pl → p.mode = .active → s.eligibleStandby (!pl) = false → Does (.giveUp pl .ecc) s (InSafe · 1)) ∧
      (p.mode = .standby → o.eccBeat = some s.beat → Does (.giveUp pl .ecc) s (InSafe · 1))) ∧
    (∀ c w, s.actId = some pl → p.mode = .active → s.eligibleStandby (!pl) = true → o.eccBeat ≠ some s.beat →
      s.twin.cmds.getLast? = some c → c.src = .reg w → c.gone = false → Does (.giveUp pl .command) s (fun t =>
        t.rfld .TBL_STATUS 0 4 = 12 ∧ t.twin.cmds = s.twin.cmds.dropLast ∧ t.twin.switch = .gap false))) ∧
  (∀ (s : State) (pl : Bool), s.dOn = true →
    (Served s .TWIN_CMD 0 →
      (s.twin.accepted = some pl → s.eligibleStandby (!pl) = true → Does .swap s (fun t =>
        t = { seqStep s with out := [], twin := { s.twin with swapReq := true, swapAct := s.twin.swapReq && s.twin.swapAct } })) ∧
      (s.twin.accepted = none ∨ (s.twin.accepted = some pl ∧ s.eligibleStandby (!pl) = false) → Does .swap s (fun t =>
        t.twin = s.twin ∧ t.rbit .TWIN_EVENT 5 = true))) ∧
    (let runs := (s.plane pl).mode = .selftest ∧ s.twin.safe = false ∧ (maskBit s.bug.dozed 36 = false ∨ s.actId = some pl)
     ∀ seg,
      (runs → Does (.selftestDone pl true seg) s (fun t =>
        (t.plane pl).mode = .resync ∧ (t.plane pl).stOk = true ∧ t.plane (!pl) = s.plane (!pl) ∧ t = { s with out := [], twin := t.twin })) ∧
      (runs → s.upd.act ≠ 4 → Does (.selftestDone pl false seg) s (fun t =>
        (t.plane pl).mode = .failed ∧ (t.plane pl).failSeg = seg.val ∧ t.plane (!pl) = s.plane (!pl) ∧
        t.upd.act = (if s.upd.act = 7 then 8 else s.upd.act) ∧ t = { s with out := [], twin := t.twin, upd := { s.upd with act := t.upd.act } })) ∧
      (runs → s.upd.act = 4 → s.actId ≠ some pl → Does (.selftestDone pl false seg) s (fun t =>
        t.upd.act = 0 ∧ t.rfld .UPD_ACT_STATUS 16 8 = 11 ∧ (t.plane pl).mode = .selftest)) ∧
      (¬ runs → ∀ pass, Does (.selftestDone pl pass seg) s (· = { s with out := [] }))) ∧
    (s.actId = some pl → (s.plane (!pl)).mode = .resync →
      Does .resyncEnd s (fun t =>
        (t.plane (!pl)).mode = .standby ∧ (t.plane (!pl)).mem = (s.plane pl).mem ∧ (t.plane (!pl)).claim = t.claimOf (!pl) ∧
        t.plane pl = s.plane pl ∧ t = { s with out := [], twin := t.twin, upd := { s.upd with act := t.upd.act } } ∧
        t.upd.act = (if s.upd.act = 4 then 6 else if s.upd.act = 7 then 8 else s.upd.act) ∧
        (s.upd.act = 4 → t.twin.swapReq = true ∧ t.twin.swapAct = true))) ∧
    (s.actId = none ∨ (s.actId = some pl ∧ (s.plane (!pl)).mode ≠ .resync) → Does .resyncEnd s (· = { s with out := [] })) ∧
    (∀ crc, crc = true ∨ 65536 < recBytes s.twin.exactQ →
      (s.follower = some pl → Does (.desync crc) s (fun t =>
        (t.plane pl).mode = .resync ∧ (t.plane pl).claim = 0 ∧ t.twin.exactQ = [] ∧ t.plane (!pl) = s.plane (!pl) ∧
        t.rbit .TWIN_EVENT 3 = true)) ∧
      (s.follower = none → Does (.desync crc) s (· = { s with out := [] }))) ∧
    (recBytes s.twin.exactQ ≤ 65536 → Does (.desync false) s (· = { s with out := [] })))

/-! ### Tables, refresh, connection state, sweeps and the beat (chapters 01, 04, 05, 06, 09) -/

/-- R93: an entry that is neither static nor multicast is aged when the ticks since its last refresh, modulo 256, have reached
AGE_LIMIT, where that is not 0; a tick is 2^20 beats; no other entry is aged. -/
def Obligations.AgedEntries : Prop :=
  ∀ (s : State) (e : List Word),
    let tick : Nat := s.beat.toNat / 2 ^ 20 % 2 ^ 8
    let lim : Nat := s.rfld .LKP_AGE_CFG 0 8
    let isStatic := bit (wd e 1) 29
    let isMc := bit (wd e 1) 30
    let age : Int := ((tick : Int) - (wfld e 2 21 8 : Int)) % 256
    (isStatic = true ∨ isMc = true → s.aged e = false) ∧ (lim = 0 → s.aged e = false) ∧
    (isStatic = false → isMc = false → lim ≠ 0 → (s.aged e = true ↔ (lim : Int) ≤ age))

/-- R125, R126, R127, R351: READ, SEARCH and NEXT, from any source, change no entry. READ returns the entry; SEARCH the entry
of a key that is present and NOT_FOUND (1) for one that is not; NEXT the lowest valid entry from TBL_INDEX on, of the FDB one
that passes TBL_FILTER. An index beyond the table is BAD_INDEX (5), a table that does not serve the command BAD_CMD (6).
Completes: tblRead, tblSearch, tblNext. -/
def Obligations.TableReadsAndSearches : Prop :=
  ∀ (s : State) (src : CmdSrc), s.dOn = true → s.actId.isSome = true →
    (TblStarts s src 1 →
      let o := issued s src 1
      (o.idx < s.tblSize o.table → TblDoes .tblRead s src (fun t k =>
        k.code = 0 ∧ t.act.mem = s.act.mem ∧ ∀ w, src = .reg w → k.data = some (s.entry o.table o.idx))) ∧
      (s.tblSize o.table = 0 → TblDoes .tblRead s src (fun t k => k.code = 6 ∧ t.act.mem = s.act.mem)) ∧
      (s.tblSize o.table ≠ 0 → s.tblSize o.table ≤ o.idx → TblDoes .tblRead s src (fun t k =>
        k.code = 5 ∧ t.act.mem = s.act.mem))) ∧
    (TblStarts s src 5 →
      let o := issued s src 5
      (∀ i, o.table = 0 ∨ o.table = 1 ∨ o.table = 4 → s.keyFind o.table o.data = some i →
        TblDoes .tblSearch s src (fun t k => k.code = 0 ∧ t.act.mem = s.act.mem ∧
          ∀ w, src = .reg w → k.index = some i ∧ k.data = some (s.entry o.table i))) ∧
      (o.table = 0 ∨ o.table = 1 ∨ o.table = 4 → s.keyFind o.table o.data = none →
        TblDoes .tblSearch s src (fun t k => k.code = 1 ∧ t.act.mem = s.act.mem)) ∧
      (o.table ≠ 0 → o.table ≠ 1 → o.table ≠ 4 → TblDoes .tblSearch s src (fun t k => k.code = 6 ∧ t.act.mem = s.act.mem))) ∧
    (TblStarts s src 6 → SMap.wf [] s.act.mem = true →
      let o := issued s src 6
      let passes := fun (j : Nat) =>
        let e := s.tget (s.tblSpace o.table) j
        tblValid o.table e && (o.table != 0 || (!s.act.stale e && s.fdbPass o.filter j e))
      (s.tblSize o.table ≠ 0 → TblDoes .tblNext s src (fun t k => t.act.mem = s.act.mem ∧ (k.code = 0 ∨ k.code = 1) ∧
        (k.code = 1 → ∀ j, o.idx ≤ j → j < 2 ^ 20 → passes j = false) ∧
        (k.code = 0 → ∀ w, src = .reg w → ∃ i, k.index = some i ∧ o.idx ≤ i ∧ passes i = true ∧
          k.data = some (s.entry o.table i) ∧ ∀ j, o.idx ≤ j → j < i → passes j = false))) ∧
      (s.tblSize o.table = 0 → TblDoes .tblNext s src (fun t k => k.code = 6 ∧ t.act.mem = s.act.mem)))

/-- R82, R86, R117, R120, R126, R127, R142, R161, R269: WRITE of a VLAN, group, rule, connection, filter or FDB entry and of a
route on the AM7240, with the refusals BAD_ENTRY (4), ORDER (7) and BUSY_COPY (13), DELETE by index and by a key, INSERT of a
key that is present (EXISTS (2) with UPDATE = 0, a new value in place with UPDATE = 1) and of a new FDB key with a free slot;
every other entry of every table is as before. An index beyond the table is BAD_INDEX (5). Completes: tblWrite, tblInsert,
tblDelete. -/
def Obligations.TableWrites : Prop :=
  ∀ (s : State) (src : CmdSrc), s.dOn = true → s.actId.isSome = true →
    (TblStarts s src 2 →
      let o := issued s src 2
      let d := wd o.data
      (o.table = 2 → o.idx < 4096 → TblDoes .tblWrite s src (fun t k => k.code = 0 ∧
        Holds t .vlan o.idx [d 0 &&& 0x3FFFFFF, d 1 &&& 0xFFFFFF, d 2 &&& 0x7FFF] ∧ OthersKept s t .vlan o.idx)) ∧
      (o.table = 3 → o.idx < 1024 → TblDoes .tblWrite s src (fun t k => k.code = 0 ∧
        Holds t .group o.idx [d 0 &&& 0x1FFFFFF] ∧ OthersKept s t .group o.idx)) ∧
      (o.table = 0 → o.idx < s.fdbSize → s.act.migrating = false →
        let e := [d 0, d 1, d 2]
        let tab := s.fdbTab 0
        let fits := s.fdbStash ≤ o.idx ∨ o.idx / 4 = tab.at 0 e / 4 ∨ o.idx / 4 = tab.at 1 e / 4
        (fdbValid e = true → fdbBad e = true → TblDoes .tblWrite s src (fun t k => k.code = 4 ∧ t.act.mem = s.act.mem)) ∧
        ((fdbValid e = false ∨ fdbBad e = false) → fits → TblDoes .tblWrite s src (fun t k => k.code = 0 ∧
          Holds t .fdb o.idx (s.fdbForm e) ∧ OthersKept s t .fdb o.idx)) ∧
        ((fdbValid e = false ∨ fdbBad e = false) → ¬ fits → TblDoes .tblWrite s src (fun t k => k.code = 5 ∧ t.act.mem = s.act.mem))) ∧
      (o.table = 4 → s.part = .am7240 → o.idx < 4096 →
        let e := (List.range 8).map d
        (rtBad e = true → TblDoes .tblWrite s src (fun t k => k.code = 4 ∧ t.act.mem = s.act.mem)) ∧
        (rtBad e = false → rtValid e = false ∨ s.rtOrder o.idx o.idx e = true → TblDoes .tblWrite s src (fun t k => k.code = 0 ∧
          Holds t .route o.idx e ∧ OthersKept s t .route o.idx)) ∧
        (rtBad e = false → rtValid e = true → s.rtOrder o.idx o.idx e = false → TblDoes .tblWrite s src (fun t k =>
          k.code = 7 ∧ t.act.mem = s.act.mem))) ∧
      (o.table = 5 → o.idx < 2048 →
        let e := (List.range 16).map d
        (s.bankBusy = true → TblDoes .tblWrite s src (fun t k => k.code = 13 ∧ t.act.mem = s.act.mem)) ∧
        (s.bankBusy = false → ruleBad e = true → TblDoes .tblWrite s src (fun t k => k.code = 4 ∧ t.act.mem = s.act.mem)) ∧
        (s.bankBusy = false → ruleBad e = false → TblDoes .tblWrite s src (fun t k => k.code = 0 ∧
          Holds t s.prepBank o.idx e ∧ OthersKept s t s.prepBank o.idx))) ∧
      (o.table = 6 → o.idx < 8192 →
        (ctValid o.data = true → TblDoes .tblWrite s src (fun t k => k.code = 4 ∧ t.act.mem = s.act.mem)) ∧
        (ctValid o.data = false → TblDoes .tblWrite s src (fun t k => k.code = 0 ∧ Holds t .conn o.idx [] ∧ OthersKept s t .conn o.idx))) ∧
      (o.table = 7 → o.idx < 1024 →
        let e := (List.range 9).map d
        (fltBad e = true → TblDoes .tblWrite s src (fun t k => k.code = 4 ∧ t.act.mem = s.act.mem)) ∧
        (fltBad e = false → bit o.cmd 10 = true → TblDoes .tblWrite s src (fun t k => k.code = 0 ∧
          Holds t .filter o.idx e ∧ OthersKept s t .filter o.idx))) ∧
      (s.tblSize o.table = 0 → TblDoes .tblWrite s src (fun t k => k.code = 6 ∧ t.act.mem = s.act.mem)) ∧
      (s.tblSize o.table ≠ 0 → s.tblSize o.table ≤ o.idx → TblDoes .tblWrite s src (fun t k => k.code = 5 ∧ t.act.mem = s.act.mem))) ∧
    (TblStarts s src 3 →
      let o := issued s src 3
      let d := (List.range 8).map (wd o.data)
      let f := (List.range 3).map (wd o.data)
      (o.table = 4 → rtValid d = true → rtBad d = false → ∀ i, s.rtFind d = some i →
        (bit o.cmd 8 = true → TblDoes .tblInsert s src (fun t k => k.code = 0 ∧ Holds t .route i d ∧ OthersKept s t .route i)) ∧
        (bit o.cmd 8 = false → TblDoes .tblInsert s src (fun t k => k.code = 2 ∧ t.act.mem = s.act.mem))) ∧
      (o.table = 0 → fdbValid f = true → fdbBad f = false → s.fdbFind (fdbFid f) (fdbMac f) = none →
        (∀ i, (s.fdbTab 0).free? s.act ((s.fdbTab 0).at 0 (s.fdbForm f)) 4 = some i → TblDoes .tblInsert s src (fun t k =>
          k.code = 0 ∧ Holds t .fdb i (s.fdbForm f) ∧ OthersKept s t .fdb i)) ∧
        ((s.fdbTab 0).place s.act (s.fdbForm f) true = none → TblDoes .tblInsert s src (fun t k =>
          k.code = 3 ∧ t.act.mem = s.act.mem)))) ∧
    (TblStarts s src 4 →
      let o := issued s src 4
      (bit o.cmd 9 = true → o.table = 2 ∨ o.table = 3 ∨ o.table = 4 ∨ o.table = 7 → o.idx < s.tblSize o.table →
        TblDoes .tblDelete s src (fun t k =>
          k.code = 0 ∧ Holds t (s.tblSpace o.table) o.idx [] ∧ OthersKept s t (s.tblSpace o.table) o.idx)) ∧
      (bit o.cmd 9 = false → o.table = 4 → ∀ i, s.keyFind 4 o.data = some i → TblDoes .tblDelete s src (fun t k =>
        k.code = 0 ∧ Holds t .route i [] ∧ OthersKept s t .route i)) ∧
      (bit o.cmd 9 = false → o.table = 0 ∨ o.table = 1 ∨ o.table = 4 ∨ o.table = 6 → s.keyFind o.table o.data = none →
        TblDoes .tblDelete s src (fun t k => k.code = 1 ∧ t.act.mem = s.act.mem)))

/-- R99, R100, R103, R107, R121, R126: FLUSH_PORT turns a port's generation, unless 15 are outstanding; MOVE takes a route to a
free row that keeps the order; SEED_SET of the stream table takes new seeds while the table is empty. Completes: flushPort,
tblMove, seedSet. -/
def Obligations.TableFlushMoveSeeds : Prop :=
  ∀ (s : State) (src : CmdSrc), s.dOn = true → s.actId.isSome = true →
    (TblStarts s src 7 →
      let o := issued s src 7
      let n := fld o.index 0 5
      o.table = 0 → n < 24 →
      (s.genFull n = false → TblDoes .flushPort s src (fun t k =>
        k.code = 0 ∧ t.act.genOf n = (s.act.genOf n + 1) % 16 ∧ OthersKept s t .gen n)) ∧
      (s.genFull n = true → TblDoes .flushPort s src (fun t k => k.code = 10 ∧ t.act = s.act))) ∧
    (TblStarts s src 8 →
      let o := issued s src 8
      let i := o.idx
      let j := fld o.index 16 16
      (o.table = 4 → s.part = .am7240 → i < 4096 → j < 4096 → rtValid (s.tget .route j) = false →
        (rtValid (s.tget .route i) = true → s.rtOrder j i (s.tget .route i) = true → TblDoes .tblMove s src (fun t k =>
          k.code = 0 ∧ Holds t .route j (s.tget .route i) ∧ Holds t .route i [] ∧
          ∀ x, x ≠ Space.route.key i → x ≠ Space.route.key j → SMap.get [] t.act.mem x = SMap.get [] s.act.mem x)) ∧
        (rtValid (s.tget .route i) = true → s.rtOrder j i (s.tget .route i) = false → TblDoes .tblMove s src (fun t k =>
          k.code = 7 ∧ t.act.mem = s.act.mem))) ∧
      (s.part = .am7220 → TblDoes .tblMove s src (fun t k => k.code = 6 ∧ t.act.mem = s.act.mem))) ∧
    (TblStarts s src 9 →
      let o := issued s src 9
      o.table = 1 →
      ((∀ e ∈ s.act.ents .stream, strValid e.2 = false) → TblDoes .seedSet s src (fun t k =>
        k.code = 0 ∧ t.act.seeds 2 = (wnum o.data 0 2, wnum o.data 2 2) ∧ OthersKept s t .seed 2)) ∧
      ((∃ e ∈ s.act.ents .stream, strValid e.2 = true) → TblDoes .seedSet s src (fun t k =>
        k.code = 11 ∧ t.act.mem = s.act.mem))) ∧
    (TblStarts s src 9 →
      let o := issued s src 9
      (o.table = 0 → s.act.migrating = true → TblDoes .seedSet s src (fun t k => k.code = 9 ∧ t.act.mem = s.act.mem)) ∧
      (o.table ≠ 0 → o.table ≠ 1 → o.table ≠ 4 → TblDoes .seedSet s src (fun t k => k.code = 6 ∧ t.act.mem = s.act.mem)))

/-- R91, R125, R365: a batch takes its records from its slabs: none, and it is resolved at once; one READ, and it has run. The
commands in progress complete when the slice has ended and the copy window has closed and the standby holds their records; one
issued by TBL_CMD then shows its code. Completes: tblCmdComplete, batch. -/
def Obligations.BatchesAndCompletion : Prop :=
  ∀ (s : State), s.dOn = true →
    (∀ (r : Fin 2) (idx : BitVec 16) (desc : List Word) (slabs : List SlabRead),
      let d := wsetFld desc 0 12 3 4
      let n := wfld desc 2 16 7
      CmdStarts s r idx d →
      1 ≤ n → n ≤ 64 → wfld desc 2 23 9 = 0 → slabs.map (·.slab) = (List.range n).map (wfld desc 2 0 16 + ·) →
      slabs.all (fun b => s.slabOk b.slab b.flag) = true →
      (batchRecs s slabs = [] → s.twin.cmds = [] → Does (.batch r idx desc slabs) s (fun t =>
        ∃ x ∈ (t.ring (64 + r.val)).fetched, x.idx = idx.toNat ∧ x.state = 3 ∧ x.status = 0 ∧ x.slabs.length = n)) ∧
      (∀ a w, batchRecs s slabs = [(a, w)] → (recOp w).op = 1 → s.actId.isSome = true → s.twin.wrCmds = 0 → s.twin.sliceEnd = false →
        Does (.batch r idx desc slabs) s (fun t => ∃ k, t.twin.cmds = s.twin.cmds ++ [k] ∧
          k.code = (tblReadOp s (recOp w)).code ∧ t.act.mem = s.act.mem))) ∧
    (s.twin.safe = true ∨ s.actId = none → Does .tblCmdComplete s (· = { s with out := [] })) ∧
    (s.twin.safe = false → s.actId.isSome = true →
      let u := copyWindow (sliceClose s.quiet)
      Does .tblCmdComplete s (fun t => t.twin.cmds = u.twin.cmds.filter (fun c => !u.cmdHeld c) ∧
        ∀ c w, u.twin.cmds = [c] → u.cmdHeld c = true → c.gone = false → c.src = .reg w → c.data = none →
          t.rfld .TBL_STATUS 0 4 = c.code % 16 ∧ t.tblBusy = t.twin.cmdWait))

/-- R91, R92, R96, R100, R101, R110, R147, R149, R152, R351: REFRESH_WRITE and CT_UPDATE_WRITE first end the beat's slice,
unless it has ended; then the oldest queued refresh writes the time stamp of an entry that still has its key, and the oldest
queued update the state of a connection that still has its key; any other is discarded, and an empty queue writes nothing. The
stream sweep visits its next 64 entries, once a beat: an entry whose RESET_BEATS have passed takes any number, a dynamic entry
without a hit in two sweeps is removed, any other has its hit bits aged; a sweep starts every PERIOD beats. CT_FLUSH turns the
generation of the connections or is deferred, in a switchover gap on the standby; UNBLOCK empties the blocked list. Completes:
refreshWrite, ctUpdateWrite, streamSweep, ctFlush, unblock. -/
def Obligations.PlaneQueues : Prop :=
  ∀ s : State,
    (s.dOn = true → s.actId.isSome = true →
      let u := sliceClose s.quiet
      (∀ r rest, u.act.refreshQ = r :: rest →
        let e := u.tget .fdb r.slot
        (fdbValid e = true → fdbFid e = r.fid → fdbMac e = r.mac → Does .refreshWrite s (fun t =>
          t.act.refreshQ = rest ∧ Holds t .fdb r.slot (wsetFld e 2 21 8 r.tick) ∧ OthersKept u t .fdb r.slot)) ∧
        (fdbValid e = false ∨ fdbFid e ≠ r.fid ∨ fdbMac e ≠ r.mac → Does .refreshWrite s (fun t =>
          t.act.refreshQ = rest ∧ t.act.mem = u.act.mem))) ∧
      (u.act.refreshQ = [] → Does .refreshWrite s (fun t => t.act = u.act)) ∧
      (∀ x rest, u.act.updateQ = x :: rest →
        let e := u.tget .conn x.slot
        (ctValid e = true → wnum (ctKey e) 0 10 = x.key → Does .ctUpdateWrite s (fun t =>
          t.act.updateQ = rest ∧ OthersKept u t .conn x.slot ∧
          Holds t .conn x.slot (wsetFld (wsetFld (wsetFld e 9 21 8 x.tick) 9 18 2 x.st) 9 20 1 (if x.reply then 1 else 0)))) ∧
        (ctValid e = false ∨ wnum (ctKey e) 0 10 ≠ x.key → Does .ctUpdateWrite s (fun t =>
          t.act.updateQ = rest ∧ t.act.mem = u.act.mem))) ∧
      (u.act.updateQ = [] → Does .ctUpdateWrite s (fun t => t.act = u.act)) ∧
      (s.twin.sliceEnd = true → u.act = s.act) ∧
      (let visited := fun (h : Nat) =>
        let e := s.tget .stream h
        let away := (s.beat.toNat % 2 ^ 32 + 2 ^ 32 - (wd (s.tget .lastAcc h) 0).toNat) % 2 ^ 32
        let e := if bit (wd e 10) 20 = false ∧ wfld e 10 8 12 ≤ away then wsetFld e 10 20 1 1 else e
        if strValid e = false then s.tget .stream h
        else if bit (wd e 6) 27 then e
        else if bit (wd e 6) 28 then wsetFld e 6 28 2 0
        else if bit (wd e 6) 29 = false then wsetFld e 6 29 1 1 else []
       let sweeps := fun (c : Nat) (t : State) => t.act.strLast = some s.beat ∧ t.act.strSweep = (if c + 1 < 64 then some (c + 1) else none) ∧
         ∀ h, h < 4096 → Holds t .stream h (if 64 * c ≤ h ∧ h < 64 * (c + 1) then visited h else s.tget .stream h)
       let due := s.rfld .LKP_STREAM_SWEEP 0 24 ≤ (s.beat - s.act.strBase).toNat
       (s.act.strLast ≠ some s.beat →
         (∀ c, s.act.strSweep = some c → Does .streamSweep s (sweeps c)) ∧
         (s.act.strSweep = none → due → Does .streamSweep s (fun t => sweeps 0 t ∧ t.act.strBase = s.beat)) ∧
         (s.act.strSweep = none → ¬ due → Does .streamSweep s (fun t =>
           t.act = { s.act with strLast := some s.beat } ∧ t = { s with out := [], twin := t.twin }))) ∧
       (s.act.strLast = some s.beat → Does .streamSweep s (· = { s with out := [] })))) ∧
    (s.dOn = true → s.actId = none →
      Does .refreshWrite s (· = { s with out := [] }) ∧ Does .ctUpdateWrite s (· = { s with out := [] }) ∧
      Does .streamSweep s (· = { s with out := [] })) ∧
    (Served s .FW_CT_CMD 0 →
      (s.actId.isSome = true →
        (s.genFull 24 = false → Does .ctFlush s (fun t =>
          t.act.genOf 24 = (s.act.genOf 24 + 1) % 16 ∧ OthersKept s t .gen 24)) ∧
        (s.genFull 24 = true → Does .ctFlush s (fun t =>
          t.act.mem = s.act.mem ∧ SMap.get false t.act.flushWait 24 = true))) ∧
      (s.actId = none → Does .ctFlush s (fun t => ∀ b,
        t.plane b = if (s.plane b).mode = .standby then (s.plane b).flush 24 else s.plane b))) ∧
    (Served s .LKP_FDB_CTRL 0 → Does .unblock s (fun t => t.act.blocked = [] ∧ t.act.mem = s.act.mem ∧
      t = { seqStep s with out := [], twin := t.twin }))

/-- R20, R191, R218, R288, R336, R505: a boundary begins the next beat at the instant of its boundary, or of the beat that a
pending resynchronisation leads to, unless the reset of CLK_RST_CMD is due; an audit asked for by a served write begins its 128
slices; an idle picture record is freed, and one in use is not; the increment of counter 31 that a renewal asked for completes.
Completes: beatBoundary, fvRenewalDone, picRecordFree, audit. -/
def Obligations.BeatAndCleaning : Prop :=
  ∀ s : State, s.dOn = true →
    (s.resetDue = false → s.time.resync = false → ∀ rep, Does (.beatBoundary rep) s (fun t =>
      t.time.beat = s.time.beat + 1 ∧ t.time.beatAt = s.boundaryAt)) ∧
    (s.resetDue = false → s.time.resync = true → ∀ rep, Does (.beatBoundary rep) s (fun t =>
      t.time.beat = BitVec.ofInt 48 s.resyncAt.1 ∧ t.time.beatAt = s.resyncAt.2)) ∧
    (s.resetDue = true → ∀ rep, Does (.beatBoundary rep) s (fun t =>
      t.clk.phase = 1 ∧ t.reg .CLK_RST_CAUSE = 6 ∧ t.twin = State.reset.twin ∧ t.bug.faultN = true)) ∧
    (s.hostUp = true → (s.audit = 0 → Does .audit s (· = { seqStep s with out := [], audit := 128 })) ∧
      (s.audit ≠ 0 → Does .audit s (· = { seqStep s with out := [] }))) ∧
    (∀ (q : Fin 192) (h : Fin 4096), s.pic q h = none → Does (.picRecordFree q h) s (· = { s with out := [] })) ∧
    (∀ (q : Fin 192) (h : Fin 4096) r, s.pic q h = some r →
      let queued := s.copies.any (fun c => queueNo c.port c.tc == q.val && c.stream == some h.val && c.counted &&
        c.phase != .tapOnly)
      (2 ^ 17 ≤ (s.beat - r.last).toNat → queued = false → Does (.picRecordFree q h) s (fun t =>
        t.pic q h = none ∧ t.picFull = false ∧ t = { s with out := [], pics := t.pics, picFull := false })) ∧
      ((s.beat - r.last).toNat < 2 ^ 17 ∨ queued = true → Does (.picRecordFree q h) s (· = { s with out := [] }))) ∧
    (s.gw.renewing = false ∨ s.gw.renewed = true → Does .fvRenewalDone s (· = { s with out := [] })) ∧
    (s.gw.renewing = true → s.gw.renewed = false → s.reg .KEEP_CTR 31 ≠ 0xFFFFFFFF → Does .fvRenewalDone s (fun t =>
      t.gw = { s.gw with renewed := true } ∧ t.reg .KEEP_CTR 31 = s.reg .KEEP_CTR 31 + 1))

/-! ### Ports and frames (chapters 02 to 07) -/

/-- R33, R34, R39, R187, R351: served writes of PORT_CTRL and PORT_FASTLINK_CTRL. EN = 1 on a port that is not enabled, and
SOFT_RST on one whose link is down, have it run with the settings written; with EN = 1 already they are only stored. EN = 0
stops the port, whether it was enabled or not, and its queues become DOWN at the next boundary unless they are; a link that is
up falls. FORGET makes the coefficient record of a B or C port invalid. No other port changes. Completes: portEnable,
portDisable, softRst, forget. -/
def Obligations.PortControl : Prop :=
  ∀ (s : State) (n : Fin 22) (w : Word),
    let rest := fun (t : State) => (∀ k, k ≠ n.val → t.port k = s.port k) ∧ t = { s with out := [], regs := t.regs, ports := t.ports }
    (Served s .PORT_CTRL n →
      (s.rbit .PORT_CTRL 0 n = false → Does (.portEnable n w) s (fun t =>
        RunsWith t n (setBit w 0 true) ∧ (t.port n).hold = (s.port n).hold ∧ (t.port n).flushDue = (s.port n).flushDue ∧ rest t)) ∧
      (s.rbit .PORT_CTRL 0 n = true → Does (.portEnable n w) s (fun t =>
        t.reg .PORT_CTRL n = setBit w 0 true &&& 0x7FF ∧ t.ports = s.ports ∧ rest t)) ∧
      (s.up n = false → Does (.portDisable n w) s (fun t =>
        t.reg .PORT_CTRL n = setBit w 0 false &&& 0x7FF ∧ (t.port n).started = false ∧ t.up n = false ∧
        (t.port n).flushDue = ((s.port n).hold != .down) ∧ t.rbit .PORT_LINK_STATUS 7 n = false ∧ rest t)) ∧
      (s.up n = true → (s.port n).cur = none → s.rfld .BUF_PORT_HOLD 0 16 n ≠ 0 → Does (.portDisable n w) s (fun t =>
        t.reg .PORT_CTRL n = setBit w 0 false &&& 0x7FF ∧ (t.port n).started = false ∧ t.up n = false ∧
        (t.port n).hold = (match (s.port n).hold with | .normal => .held s.beat | h => h) ∧
        (t.port n).flushDue = ((s.port n).hold != .down) ∧ (∀ k, k ≠ n.val → t.port k = s.port k) ∧ t.copies = s.copies)) ∧
      (s.up n = false → Does (.softRst n w) s (fun t =>
        RunsWith t n w ∧ (t.port n).flushDue = ((s.port n).hold != .down) ∧ rest t))) ∧
    (Served s .PORT_FASTLINK_CTRL n →
      (n.val < 12 → Does (.forget n) s (fun t =>
        t.coefValid n = false ∧ t = { s with out := [], regs := t.regs } ∧
        ∀ r i j, r.addr i j ≠ Reg.KEEP_COEF.addr n 23 → r.addr i j ≠ Reg.HIF_BAR0_SEQ.addr 0 0 → t.reg r i j = s.reg r i j)) ∧
      (12 ≤ n.val → Does (.forget n) s (· = { seqStep s with out := [] })))

/-- R36, R37, R38, R41, R42, R183 to R186: a started port's link comes up with its speed, NORMAL, and is flagged, as fast when
its refresh converged in time; it falls, HELD or, with LINK_HOLD = 0, DOWN, and the copy on its wire is lost; at the end of
LINK_HOLD its copies are flushed and counted, its learned entries retired and it is DOWN; a refresh training that has not
converged within FAST_TMO goes on from cold; a link up for 1 s stores its coefficients, role, speed and the partner's precoder
selection, once. Where the record's fields lie is the model's choice (log entry 79). R31, R32, R44: a follower's PST falls with
a beacon timeout and rises with the beacons of an up port; a collision counts an attempt, the next attempt begins after the gap
of 12 bytes and the back-off of the medium, and the 16th discards the frame. Completes: linkUp, linkDown, linkHoldExpiry,
fastFallback, coefficientStore, plcaBeaconTimeout, plcaBeaconsReturn, collision. -/
def Obligations.LinksAndMedia : Prop :=
  (∀ (s : State) (n : Fin 22), s.dOn = true →
    let p := s.port n
    (∀ rep : LinkReport,
      let speed := if p.anEn then rep.speed.toNat else if p.speed = 0 then defaultSpeed n else p.speed
      let leader := if p.anEn then rep.leader else p.role == 1
      let late := p.train == .refresh && s.refreshOver n p.trainAt
      (s.hasPort n = true → s.up n = false → p.started = true → s.rbit .PORT_LINK_STATUS 7 n = false → speed ≠ 0 →
        speedOk n p.hMode speed = true → Does (.linkUp n rep) s (fun t =>
          t.up n = true ∧ t.rfld .PORT_LINK_STATUS 1 3 n = speed ∧ (t.port n).hold = .normal ∧ (t.port n).upSince = s.beat ∧
          t.rbit .PORT_LINK_STATUS 6 n =
            ((p.train == .refresh || p.train == .negotiate) && !late && s.coefMatch n speed leader) ∧
          t.rbit .PORT_LINK_EVENT 1 n = true ∧ (late = true → t.rbit .PORT_LINK_EVENT 2 n = true) ∧
          (∀ k, k ≠ n.val → t.port k = s.port k) ∧ t.copies = s.copies ∧ t.queues = s.queues)) ∧
      (s.hasPort n = false ∨ s.up n = true ∨ p.started = false → Does (.linkUp n rep) s (· = { s with out := [] }))) ∧
    (s.up n = true → s.rfld .BUF_PORT_HOLD 0 16 n ≠ 0 →
      (p.cur = none → Does (.linkDown n) s (fun t =>
        t.up n = false ∧ t.rbit .PORT_LINK_EVENT 0 n = true ∧
        (t.port n).hold = (match p.hold with | .normal => .held s.beat | h => h) ∧
        (∀ k, k ≠ n.val → t.port k = s.port k) ∧ t.copies = s.copies)) ∧
      (∀ k c, p.cur = some k → s.copyOf k = some c → Does (.linkDown n) s (fun t =>
        t.up n = false ∧ (t.port n).cur = none ∧ t.copyOf k = none ∧
        t.ctr (.queue (queueNo c.port c.tc) .TX_ABORT) = s.ctr (.queue (queueNo c.port c.tc) .TX_ABORT) + 1))) ∧
    (s.up n = true → p.cur = none → s.rfld .BUF_PORT_HOLD 0 16 n = 0 → (∀ c ∈ s.copies, c.port ≠ n.val) →
      Does (.linkDown n) s (fun t => t.up n = false ∧ (t.port n).hold = .down)) ∧
    (s.up n = false → Does (.linkDown n) s (· = { s with out := [] })) ∧
    (∀ d, p.hold = .held d →
      let due := passed (d + BitVec.ofNat 48 (s.rfld .BUF_PORT_HOLD 0 16 n)) s.beat
      (due = true → s.up n = false → Does (.linkHoldExpiry n) s (fun t =>
        (t.port n).hold = .down ∧ (t.port n).flushDue = false ∧ (∀ c ∈ t.copies, c.port = n.val → c.phase = .tapOnly ∨ c.phase = .lost) ∧
        (∀ c, p.cur = none → s.copies = [c] → c.port = n.val → c.phase = .linked → t.copies = [] ∧
          t.ctr (.queue (queueNo c.port c.tc) .LINK_FLUSH) = s.ctr (.queue (queueNo c.port c.tc) .LINK_FLUSH) + 1) ∧
        (s.copies = [] → p.cur = none → t.copies = [] ∧ t.held = s.held ∧ (∀ k, k ≠ n.val → t.port k = s.port k) ∧
          (s.actId.isSome = true → s.genFull n = false → t.act.genOf n = (s.act.genOf n + 1) % 16)))) ∧
      (due = false → Does (.linkHoldExpiry n) s (· = { s with out := [] }))) ∧
    (p.hold = .normal ∨ p.hold = .down → Does (.linkHoldExpiry n) s (· = { s with out := [] })) ∧
    (∀ neg : Negotiated,
      let due := (p.train = .refresh ∧ s.refreshOver n p.trainAt = true) ∨
        (p.train = .negotiate ∧ s.coefMatch n neg.speed.toNat neg.leader = true ∧ p.trainAt.toNat ≤ neg.ended.toNat ∧
          s.refreshOver n neg.ended = true)
      (due → Does (.fastFallback ⟨n, neg⟩) s (fun t =>
        t.port n = { p with train := .cold } ∧ t.rbit .PORT_LINK_EVENT 2 n = true ∧ ∀ k, k ≠ n.val → t.port k = s.port k)) ∧
      (¬ due → Does (.fastFallback ⟨n, neg⟩) s (· = { s with out := [] }))) ∧
    (∀ (taps : List Word) (prec : Byte),
      (n.val < 12 → s.up n = true → p.stored = false → s.rbit .PORT_FASTLINK_CFG 8 n = true →
        125000 ≤ (s.beat - p.upSince).toNat → Does (.coefficientStore n ⟨taps, prec⟩) s (fun t =>
          t.coefValid n = true ∧ (t.port n).stored = true ∧ fld (t.coef n 0) 0 3 = s.rfld .PORT_LINK_STATUS 1 3 n ∧
          fld (t.coef n 0) 3 1 = s.rfld .PORT_LINK_STATUS 4 1 n ∧ fld (t.coef n 0) 8 8 = prec.toNat ∧
          (∀ k, k < 22 → t.coef n (k + 1) = wd taps k) ∧ t = { s with out := [], regs := t.regs, ports := t.ports })) ∧
      (12 ≤ n.val ∨ s.up n = false ∨ p.stored = true → Does (.coefficientStore n ⟨taps, prec⟩) s (· = { s with out := [] })))) ∧
  (∀ (s : State) (n : Fin 22), s.dOn = true →
    (s.plcaFollower n = true → Does (.plcaBeaconTimeout n) s (fun t =>
        t.rbit .PORT_PLCA_STATUS 0 n = false ∧ t.pst n = false ∧ t = { s with out := [], regs := t.regs }) ∧
      (s.up n = true → Does (.plcaBeaconsReturn n) s (fun t =>
        t.rbit .PORT_PLCA_STATUS 0 n = true ∧ t.pst n = true ∧ t = { s with out := [], regs := t.regs })) ∧
      (s.up n = false → Does (.plcaBeaconsReturn n) s (· = { s with out := [] }))) ∧
    (s.plcaFollower n = false → Does (.plcaBeaconTimeout n) s (· = { s with out := [] }) ∧
      Does (.plcaBeaconsReturn n) s (· = { s with out := [] })) ∧
    (∀ wait : BitVec 32,
      let p := s.port n
      let gap := s.time.cnt + 3000
      (portClass n = .m → s.pst n = false → ∀ k, p.cur = some k →
        (p.attempts + 1 < 16 → Does (.collision ⟨n, wait⟩) s (fun t =>
          t.port n = { p with attempts := p.attempts + 1, curAt := gap + wait.zeroExtend 64,
                              busyTo := gap + wait.zeroExtend 64 + (p.busyTo - p.curAt) } ∧
          t = { s with out := [], ports := t.ports } ∧ ∀ k, k ≠ n.val → t.port k = s.port k)) ∧
        (16 ≤ p.attempts + 1 → Does (.collision ⟨n, wait⟩) s (fun t =>
          (t.port n).cur = none ∧ (t.port n).attempts = 0 ∧ (t.port n).busyTo = gap ∧ t.copyOf k = none ∧
          t.ctr (.port n .COLLISION_DROP) = s.ctr (.port n .COLLISION_DROP) + 1))) ∧
      (portClass n ≠ .m ∨ s.pst n = true ∨ p.cur = none → Does (.collision ⟨n, wait⟩) s (· = { s with out := [] }))))

/-- R45, R49, R50, R70, R167, R168, R255, R509: a frame that the MAC discards is counted under the first cause that applies and
leaves no other trace; a good frame is counted and, once READY and outside the safe state, enters the holding area without its
FCS if it has room. R60, R70, R75, R131, R137, R168, R169, R188, R234: a held frame is walked by the parse graph and has its
key, or is dropped, also where its blocks hold an uncorrectable error; a correctable one is counted; a decision of the accepted
plane leaves the frame decided, admitted or gone; a frame whose table steps name a cause is dropped and counted under it;
without an accepted plane no frame is decided. Completes: frameReceive, parse, decision. -/
def Obligations.ReceptionAndDecision : Prop :=
  (∀ (s : State) (n : Fin 22) (rx : RxFrame), s.dOn = true →
    ((s.port n).started = false → Does (.frameReceive n rx) s (· = { s with out := [] })) ∧
    ((s.port n).started = true → s.up n = true →
    (∀ c, s.macDiscard n rx = some c → Does (.frameReceive n rx) s (fun t =>
      t.ctr (.port n c) = s.ctr (.port n c) + 1 ∧ t = { s with out := [], ctrs := t.ctrs })) ∧
    (s.macDiscard n rx = none → s.twin.safe = true ∨ s.clk.phase < 7 → Does (.frameReceive n rx) s (fun t =>
      t.ctr (.port n .RX_FRAMES) = s.ctr (.port n .RX_FRAMES) + 1 ∧ t = { s with out := [], ctrs := t.ctrs })) ∧
    (s.macDiscard n rx = none → s.twin.safe = false → s.clk.phase = 7 → secyOf n = none ∨ s.rbit .PORT_SECY_CFG 0 n = false →
      let body := rx.bytes.take (rx.bytes.length - 4)
      let blocks := blocksOf body.length
      (s.holdRoom n blocks = true → Does (.frameReceive n rx) s (fun t =>
        ∃ h : Held, t.held = s.held ++ [h] ∧ h.port = n.val ∧ h.bytes = body ∧ h.wire = rx.bytes.length ∧ h.blocks = blocks ∧ h.arrive = s.time.cnt ∧
          h.key = none ∧ h.admitted = false ∧ h.id = s.nextFrame ∧ t.nextFrame = s.nextFrame + 1 ∧
          t.ctr (.port n .RX_FRAMES) = s.ctr (.port n .RX_FRAMES) + 1)) ∧
      (s.holdRoom n blocks = false → Does (.frameReceive n rx) s (fun t =>
        t.held = s.held ∧ t.ctr (.port n .HOLD_FULL) = s.ctr (.port n .HOLD_FULL) + 1))))) ∧
  (∀ (s : State) (f : Nat), s.dOn = true →
    (s.heldOf f = none → ∀ e, Does (.parse f e) s (· = { s with out := [] })) ∧
    (s.twin.accepted = none → Does (.decision f) s (fun t => t.held = s.held ∧ t.copies = s.copies ∧ t.queues = s.queues) ∧
      (s.twin.sliceEnd = true → Does (.decision f) s (· = { s with out := [] }))) ∧
    (∀ h, s.heldOf f = some h →
      (h.key = none → Does (.parse f .ok) s (fun t =>
        (∀ k v m, s.parse h.port h.bytes = .inr (k, v, m) →
          t.heldOf f = some { h with key := some k, video := v, marks := m, bank := s.graphEpoch } ∧
          t = { s with out := [], held := t.held }) ∧
        (∀ c, s.parse h.port h.bytes = .inl c → t.heldOf f = none))) ∧
      (h.key = none → Does (.parse f .ce) s (fun t =>
        t.ctr (.device .HOLD_CE) = s.ctr (.device .HOLD_CE) + 1 ∧
        ∀ k v m, s.parse h.port h.bytes = .inr (k, v, m) → ∃ h', t.heldOf f = some h' ∧ h'.key = some k)) ∧
      (h.key = none → Does (.parse f .bad) s (fun t =>
        t.heldOf f = none ∧ t.ctr (.port h.port .HOLD_ECC) = s.ctr (.port h.port .HOLD_ECC) + 1)) ∧
      (∀ k, h.key = some k → ∀ e, Does (.parse f e) s (· = { s with out := [] })) ∧
      (s.twin.accepted.isSome = true → h.dec = none → h.admitted = false → srcTracked h.src = false ∨ h.track.isSome = true →
        Does (.decision f) s (fun t => ∀ h', t.heldOf f = some h' → h'.dec.isSome = true ∨ h'.admitted = true) ∧
        (∀ key c u, s.twin.sliceEnd = true → h.key = some key → h.bank = s.graphEpoch → tableSteps s.quiet h key = (.inl c, u) →
          Does (.decision f) s (fun t => t.heldOf f = none ∧ t.ctr c.ctr = u.ctr c.ctr + 1))) ∧
      (s.twin.sliceEnd = true → h.dec.isSome = true ∨ h.admitted = true → Does (.decision f) s (· = { s with out := [] }))))

/-- R27, R168, R172, R188, R189, R228, R249: the admitted copies are written in decision order; a written copy is linked at the
tail of its queue once every earlier copy of the queue is, and counted, and while no plane is accepted none is linked; an
uncorrectable block of the holding area drops every copy of its frame not yet written. Completes: copyWrite, copyLink. -/
def Obligations.CopyWriteAndLink : Prop :=
  ∀ (s : State) (k : Nat), s.dOn = true →
    (s.copyOf k = none → (∀ e, Does (.copyWrite k e) s (· = { s with out := [] })) ∧ Does (.copyLink k) s (· = { s with out := [] })) ∧
    (∀ c, s.copyOf k = some c →
      let turn := c.phase = .pending ∧ ∀ x ∈ s.copies, x.phase = .pending → c.seq ≤ x.seq
      (turn → c.first = false ∨ c.stream = none →
        Does (.copyWrite k .ok) s (fun t =>
          t.copyOf k = some { c with phase := .written } ∧ (∀ j, j ≠ k → t.copyOf j = s.copyOf j) ∧ t.queues = s.queues) ∧
        Does (.copyWrite k .ce) s (fun t =>
          t.copyOf k = some { c with phase := .written } ∧ (∀ j, j ≠ k → t.copyOf j = s.copyOf j) ∧ t.queues = s.queues ∧
          t.ctr (.device .HOLD_CE) = s.ctr (.device .HOLD_CE) + 1)) ∧
      (turn → Does (.copyWrite k .bad) s (fun t =>
        t.copyOf k = none ∧ t.heldOf c.frame = none ∧ t.ctr (.port c.inPort .HOLD_ECC) = s.ctr (.port c.inPort .HOLD_ECC) + 1)) ∧
      (¬ turn → ∀ e, Does (.copyWrite k e) s (· = { s with out := [] })) ∧
      (let q := queueNo c.port c.tc
       let earlier := s.copies.any (fun x => queueNo x.port x.tc == q && decide (x.seq < c.seq) &&
         (x.phase == .pending || x.phase == .written))
       (c.phase = .written → earlier = false → s.twin.accepted.isSome = true → Does (.copyLink k) s (fun t =>
         (t.queue q).list = (s.queue q).list ++ [k] ∧ t.copyOf k = some { c with phase := .linked, enq := s.time.cnt } ∧
         t.ctr (.queue q .ENQ_COPIES) = s.ctr (.queue q .ENQ_COPIES) + 1 ∧
         (∀ p, p ≠ q → (t.queue p).list = (s.queue p).list) ∧ ∀ j, j ≠ k → t.copyOf j = s.copyOf j)) ∧
       (c.phase ≠ .written ∨ earlier = true ∨ s.twin.accepted = none → Does (.copyLink k) s (· = { s with out := [] }))))

/-- R48, R51, R173, R188, R189, R202, R206, R207, R210, R212, R362: a free output stage starts the copy that it chooses, and
none when it has none, and drops a copy for the host whose ring drops when it is empty; a shaped queue whose credit has come
back lets its port choose; the copy sent is counted, its port is free, and the padded frame is on the wire, or with a bad
header is dropped and ends with a bad FCS; the gates take their next entry on beat time. Completes: transmitChoice, creditZero,
copySent, gateChange. -/
def Obligations.Transmission : Prop :=
  ∀ (s : State), s.dOn = true →
    (∀ p : Fin 24,
      (s.macFree p = false → ∀ e, Does (.transmitChoice p e) s (· = { s with out := [] })) ∧
      (s.macFree p = true → ∀ c, s.quiet.choice p = some c → secyOf c.port = none → p ≠ 22 ∨ s.rxBufs (s.rxRing c) ≠ 0 →
        Does (.transmitChoice p .ok) s (fun t => GoesOnWire s t c)) ∧
      (s.macFree 22 = true → p = 22 → ∀ c, s.quiet.choice p = some c → s.rxBufs (s.rxRing c) = 0 → Does (.transmitChoice p .ok) s (fun t =>
        t.copyOf c.id = none ∧ t.ctr (.ring (32 + s.rxRing c) .LOST) = s.ctr (.ring (32 + s.rxRing c) .LOST) + 1)) ∧
      (s.macFree p = true → s.quiet.choice p = none → ∀ e, Does (.transmitChoice p e) s (fun t => (t.port p).cur = none)) ∧
      (∀ k c, (s.port p).cur = some k → s.copyOf k = some c →
        let w := padFrame (s.port p).curWire
        let q := queueNo p c.tc
        (p.val < 22 → (s.port p).loopback = 0 → Does (.copySent p .ok) s (fun t =>
          (t.port p).cur = none ∧ t.out.getLast? = some (.wireFrame p w true) ∧
          t.ctr (.port p .TX_FRAMES) = s.ctr (.port p .TX_FRAMES) + 1 ∧
          t.ctr (.port p .TX_BYTES) = s.ctr (.port p .TX_BYTES) + BitVec.ofNat 64 (w.length + 4) ∧
          t.ctr (.queue q .TX_FRAMES) = s.ctr (.queue q .TX_FRAMES) + 1)) ∧
        (p = 23 → tunnelCopy c.bytes = false → Does (.copySent p .ok) s (fun t =>
          (t.port p).cur = none ∧ t.out.getLast? = some (.shepherd c.inPort c.bytes c.rxStamp))) ∧
        (p = 22 ∨ p = 23 ∧ tunnelCopy c.bytes = true → Does (.copySent p .ok) s (· = { s with out := [] })) ∧
        (∀ cell, Does (.copySent p (.header cell)) s (fun t => (t.port p).cur = none ∧ t.copyOf k = none ∧
          (p.val < 22 → t.out.head? = some (.wireFrame p [] false))))) ∧
      ((s.port p).cur = none → ∀ e, Does (.copySent p e) s (· = { s with out := [] }))) ∧
    (∀ q : Fin 192,
      let u := accrue s.quiet q
      (s.rbit .TM_Q_SCHED 16 q = false ∨ (u.queue q).credit < 0 → Does (.creditZero q) s (fun t =>
        t = { s with out := [], queues := u.queues })) ∧
      (s.rbit .TM_Q_SCHED 16 q = true → 0 ≤ (u.queue q).credit → s.macFree (q.val / 8) = true → q.val / 8 ≠ 22 →
        ∀ c, u.choice (q.val / 8) = some c → secyOf c.port = none → Does (.creditZero q) s (fun t => GoesOnWire s t c))) ∧
    (∀ n : Fin 22,
      let p := s.port n
      let due := (p.entEnd p.gateEnt : Int) * 65536 ≤ s.beatTime s.time.cnt
      (p.gate.en = true → p.gateEnt + 1 < p.segs.length → due →
        Does (.gateChange n) s (fun t => t.port n = { p with gateEnt := p.gateEnt + 1 } ∧
          t = { s with out := [], ports := t.ports, queues := t.queues })) ∧
      (p.gate.en = true → p.segs.length ≤ p.gateEnt + 1 → passed p.cycleEnd s.beat = true →
        Does (.gateChange n) s (fun t => t.port n = { p with cycleAt := p.cycleEnd, gateEnt := 0 } ∧
          t = { s with out := [], ports := t.ports, queues := t.queues })) ∧
      (p.gate.en = false ∨ p.gateEnt + 1 < p.segs.length ∧ ¬ due → Does (.gateChange n) s (· = { s with out := [] })))

/-- R360 to R362, R366: a copy for the host is written into the buffer of its descriptor and the ring moves on; without a
buffer, or where the descriptor read failed, it goes back to the head of its queue, or with DROP_EMPTY is dropped and counted.
Completes: rxDelivery. -/
def Obligations.HostDelivery : Prop :=
  ∀ (s : State) (k : Nat), s.dOn = true →
    ((s.port 22).cur ≠ some k → ∀ d, Does (.rxDelivery k d) s (· = { s with out := [] })) ∧
    (∀ c, (s.port 22).cur = some k → s.copyOf k = some c →
      let r := s.rxRing c
      let back := fun (t : State) => (t.port 22).cur = none ∧
        (t.queue (queueNo 22 c.tc)).list = k :: (s.queue (queueNo 22 c.tc)).list ∧ t.copyOf k = some { c with phase := .linked }
      let lost := fun (t : State) => (t.port 22).cur = none ∧ t.copyOf k = none ∧
        t.ctr (.ring (32 + r) .LOST) = s.ctr (.ring (32 + r) .LOST) + 1
      (∀ d, bit (wd d 2) 31 = true → s.rxBufs r ≠ 0 → Does (.rxDelivery k (some d)) s (fun t =>
        (t.port 22).cur = none ∧ (t.ring (32 + r)).head = ((s.ring (32 + r)).head + 1) % 65536 ∧
        t.out.head? = some (.hostWrite (addr64 (wd d 0) (wd d 1)) (c.bytes.take (wfld d 2 0 14))) ∧
        t.ctr (.port 22 .TX_FRAMES) = s.ctr (.port 22 .TX_FRAMES) + 1 ∧ (c.tap = [] → t.copyOf k = none))) ∧
      (∀ d, bit (wd d 2) 31 = false → c.port = 22 →
        (s.rbit .HIF_RXR_CFG 14 r = false → Does (.rxDelivery k (some d)) s back) ∧
        (s.rbit .HIF_RXR_CFG 14 r = true → Does (.rxDelivery k (some d)) s lost)) ∧
      (c.port = 22 → s.rbit .HIF_RXR_CFG 14 r = false → Does (.rxDelivery k none) s (fun t =>
        t.rbit .HIF_EVENT 4 = true ∧ (t.port 22).cur = none ∧ (t.queue (queueNo 22 c.tc)).list = k :: (s.queue (queueNo 22 c.tc)).list)))

/-! ### The legacy gateway (chapter 09) -/

/-- R262, R264, R272, R273, R292, R351: a CAN controller: a served write of GW_CAN_CTRL with EN = 1 applies the settings or
refuses them where EN was 0, and is only stored where it was 1; a frame heard enters the receive FIFO or is an overrun; the
frame offered leaves the transmit memory as it is sent, in internal loopback to the controller itself; frames older than the
MAXAGE in force expire, but for the one that is being transmitted; a flush empties the memory. No other controller changes.
R274, R275, R276, R291, R351: errors of a CAN controller: an error is counted and moves the error counts, and with a count
above 127 the controller is error-passive; with the transmit error count above 255 bus-off empties the transmit memory and is
flagged (the counts and limits are those of ISO 11898-1: log entry 93); recovery begins BO_HOLD ms later or with RECOVER, and
ends with cleared counts; a transmit input held dominant is taken off the bus. Completes: canControllerEnable, txFlush,
canReceive, canTxDone, txExpired, canBusError, busOff, busOffRecoveryStart, recover, busOffRecovered, txdTimeout. -/
def Obligations.CanControllers : Prop :=
  (∀ (s : State) (c : Fin 8),
    let v := s.can c
    let rest := fun (t : State) => ∀ k, k ≠ c.val → t.can k = s.can k
    (Served s .GW_CAN_CTRL c → ∀ w,
      (s.rbit .GW_CAN_CTRL 0 c = false → s.canBad c (fld w 1 2) = false → Does (.canControllerEnable c w) s (fun t =>
        t.can c = { v with on := true, cfgErr := false, ctrl := setBit w 0 true &&& 0xFF7F, maxAge := s.rfld .GW_CAN_TXAGE 0 16 c,
                           proto := fld w 1 2, nbt := s.reg .GW_CAN_NBT c, dbt := s.reg .GW_CAN_DBT c, xbt := s.reg .GW_CAN_XBT c,
                           fast := s.rbit .GW_CAN_XCVR 4 c && decide (c.val < 2),
                           busoff := false, recovering := false, passive := false, tec := 0, recv := 0 } ∧
        t.reg .GW_CAN_CTRL c = setBit w 0 true &&& 0xFF7F ∧ rest t ∧ t = { s with out := [], regs := t.regs, gw := t.gw })) ∧
      (s.rbit .GW_CAN_CTRL 0 c = false → s.canBad c (fld w 1 2) = true → Does (.canControllerEnable c w) s (fun t =>
        t.can c = { v with on := false, cfgErr := true } ∧ t.reg .GW_CAN_CTRL c = setBit w 0 true &&& 0xFF7F ∧ rest t)) ∧
      (s.rbit .GW_CAN_CTRL 0 c = true → Does (.canControllerEnable c w) s (fun t =>
        t.reg .GW_CAN_CTRL c = setBit w 0 true &&& 0xFF7F ∧ t = { s with out := [], regs := t.regs }))) ∧
    (Served s .GW_CAN_CMD c → Does (.txFlush c) s (fun t => t.can c = { v with tx := [] } ∧ rest t ∧
      t.ctr (.canc c .TX_EXPIRED) = s.ctr (.canc c .TX_EXPIRED) + BitVec.ofNat 64 v.tx.length ∧
      t = { seqStep s with out := [], gw := t.gw, ctrs := t.ctrs })) ∧
    (s.dOn = true →
      (∀ f, s.canHears c = true → protoTakes v.proto f = true →
        (s.canRoom c f = true → Does (.canReceive c f) s (fun t =>
          (t.can c).rx = v.rx ++ [{ frame := f, at_ := s.time.cnt }] ∧ (t.can c).tx = v.tx ∧
          t.ctr (.canc c .RX_OK) = s.ctr (.canc c .RX_OK) + 1 ∧ rest t)) ∧
        (s.canRoom c f = false → Does (.canReceive c f) s (fun t =>
          (t.can c).rx = v.rx ∧ (t.can c).tx = v.tx ∧ t.ctr (.canc c .RX_OVERRUN) = s.ctr (.canc c .RX_OVERRUN) + 1 ∧
          t.rbit .GW_CAN_EVENT 2 c = true ∧ rest t))) ∧
      (∀ f, s.canHears c = false ∨ protoTakes v.proto f = false → Does (.canReceive c f) s (· = { s with out := [] })) ∧
      (∀ e, s.canSends c = true → s.canOffer c = some e →
        (bit v.ctrl 6 = false → Does (.canTxDone c) s (fun t =>
          t.out.getLast? = some (.canTx c e.frame) ∧ (t.can c).tx = v.tx.erase e ∧ (t.can c).tec = v.tec - 1 ∧
          t.ctr (.canc c .TX_OK) = s.ctr (.canc c .TX_OK) + 1 ∧ rest t)) ∧
        (bit v.ctrl 6 = true → s.canRoom c e.frame = true → Does (.canTxDone c) s (fun t =>
          (t.can c).rx = v.rx ++ [{ frame := e.frame, at_ := s.time.cnt }] ∧ (t.can c).tx = v.tx.erase e ∧ t.out = [] ∧
          t.ctr (.canc c .TX_OK) = s.ctr (.canc c .TX_OK) + 1 ∧ t.ctr (.canc c .RX_OK) = s.ctr (.canc c .RX_OK) + 1 ∧ rest t))) ∧
      (s.canSends c = false ∨ s.canOffer c = none → Does (.canTxDone c) s (· = { s with out := [] })) ∧
      (∀ sending : Option (Fin 32),
        let old := fun (e : TxEnt × Nat) =>
          decide (v.maxAge ≠ 0) && decide (v.maxAge < (s.beat - e.1.beat).toNat) && sending.map (·.val) != some e.2
        let l := v.tx.zipIdx 0
        Does (.txExpired ⟨c, sending⟩) s (fun t =>
          t.can c = { v with tx := (l.filter (fun e => !old e)).map (·.1) } ∧ rest t ∧
          t = { s with out := [], gw := t.gw, ctrs := t.ctrs } ∧
          t.ctr (.canc c .TX_EXPIRED) = s.ctr (.canc c .TX_EXPIRED) + BitVec.ofNat 64 (l.filter old).length)))) ∧
  (∀ (s : State) (c : Fin 8),
    let v := s.can c
    let rest := fun (t : State) => ∀ k, k ≠ c.val → t.can k = s.can k
    let only := fun (w : Can) (t : State) => t.can c = w ∧ rest t
    (Served s .GW_CAN_CMD c →
      (v.busoff = true → bit v.ctrl 4 = false → Does (.recover c) s (fun t =>
        only { v with recovering := true } t ∧ t = { seqStep s with out := [], gw := t.gw })) ∧
      (v.busoff = false ∨ bit v.ctrl 4 = true → Does (.recover c) s (· = { seqStep s with out := [] }))) ∧
    (s.dOn = true →
      (v.on = true → v.busoff = false → 255 < v.tec → Does (.busOff c) s (fun t =>
        only { v with busoff := true, recovering := false, offAt := s.time.cnt, tx := [] } t ∧
        t.ctr (.canc c .TX_BUSOFF) = s.ctr (.canc c .TX_BUSOFF) + BitVec.ofNat 64 v.tx.length ∧
        t.ctr (.canc c .BUSOFF_ENTRIES) = s.ctr (.canc c .BUSOFF_ENTRIES) + 1 ∧ t.rbit .GW_CAN_EVENT 0 c = true)) ∧
      (v.on = false ∨ v.busoff = true ∨ v.tec ≤ 255 → Does (.busOff c) s (· = { s with out := [] })) ∧
      (let due := v.busoff = true ∧ bit v.ctrl 4 = true ∧ fld v.ctrl 8 8 * 312500 ≤ (s.time.cnt - v.offAt).toNat
       (due → Does (.busOffRecoveryStart c) s (fun t => only { v with recovering := true } t ∧ t = { s with out := [], gw := t.gw })) ∧
       (¬ due → Does (.busOffRecoveryStart c) s (· = { s with out := [] }))) ∧
      (v.busoff = true → v.recovering = true → Does (.busOffRecovered c) s (fun t =>
        only { v with busoff := false, recovering := false, passive := false, tec := 0, recv := 0 } t ∧
        t.rbit .GW_CAN_EVENT 4 c = true)) ∧
      (v.busoff = false ∨ v.recovering = false → Does (.busOffRecovered c) s (· = { s with out := [] })) ∧
      (v.on = true → Does (.txdTimeout c false) s (fun t => only { v with txdHold := true } t ∧ t.rbit .GW_CAN_EVENT 5 c = true) ∧
        Does (.txdTimeout c true) s (only { v with txdHold := false })) ∧
      (v.on = false → ∀ b, Does (.txdTimeout c b) s (· = { s with out := [] })) ∧
      (∀ err : CanErrReport,
        let w := if s.canQuiet c then v
          else if err.sender then { v with tec := v.tec + (if err.exempt then 0 else 8) + 8 * err.more }
          else { v with recv := min 255 (v.recv + (if err.exempt then 0 else 1) + 8 * err.more) }
        let p := decide (127 < w.tec) || decide (127 < w.recv)
        (v.on = true → v.busoff = false → Does (.canBusError c err) s (fun t =>
          only { w with passive := p } t ∧ (p = true → v.passive = false → t.rbit .GW_CAN_EVENT 1 c = true) ∧
          t.ctr (.canc c (canErrCtr err.kind)) = s.ctr (.canc c (canErrCtr err.kind)) + 1)) ∧
        (v.on = false ∨ v.busoff = true → Does (.canBusError c err) s (· = { s with out := [] })))))

/-- R277 to R279, R351: a LIN channel: EN's rise applies the settings and arms the schedule; a slot's header goes out and the
schedule moves on, and with a published identifier the response follows; a header is answered from the publish buffer of its
identifier, with the checksum that the channel and the identifier choose, or awaits its response; a response with a good
checksum enters the receive FIFO; errors and missing responses are counted. No other channel changes. The checksum byte is that
of ISO 17987 (log entry 95). Completes: linChannelEnable, linScheduleSlot, linHeader, linResponseReceive, noResponse. -/
def Obligations.LinTraffic : Prop :=
  ∀ (s : State) (l : Fin 4),
    let v := s.linc l
    let rest := fun (t : State) => ∀ k, k ≠ l.val → t.linc k = s.linc k
    (Served s .GW_LIN_CTRL l → ∀ w,
      (s.rbit .GW_LIN_CTRL 0 l = false → Does (.linChannelEnable l w) s (fun t =>
        (t.linc l).on = true ∧ (t.linc l).baud = s.reg .GW_LIN_BAUD l ∧ (t.linc l).ctrl = t.reg .GW_LIN_CTRL l ∧ (t.linc l).pub = [] ∧
        (t.linc l).header = none ∧ (t.linc l).active = false ∧
        (t.linc l).armed = (bit w 1 && fld w 8 6 != 0) ∧ (t.linc l).slotEnd = s.beat + 1 ∧ (t.linc l).rx = v.rx ∧
        t.reg .GW_LIN_CTRL l = setFld (setBit w 0 true &&& 0x3F0F) 8 6 (min (fld w 8 6) 32) ∧ rest t)) ∧
      (s.rbit .GW_LIN_CTRL 0 l = true → Does (.linChannelEnable l w) s (fun t =>
        t.gw = s.gw ∧ t.reg .GW_LIN_CTRL l = setFld (setBit w 0 true &&& 0x3F0F) 8 6 (min (fld w 8 6) 32)))) ∧
    (s.dOn = true →
      (∀ bitErr,
        (v.on = true → v.armed = true ∨ v.active = true → passed v.slotEnd s.beat = true →
          let e := if v.active then (v.ent + 1) % max (fld v.ctrl 8 6) 1 else 0
          let w := s.reg .GW_LIN_SCHED l e
          let id := fld w 0 6
          Does (.linScheduleSlot ⟨l, bitErr⟩) s (fun t =>
            (t.linc l).active = true ∧ (t.linc l).armed = false ∧ (t.linc l).ent = e ∧
            (t.linc l).slotEnd = v.slotEnd + BitVec.ofNat 48 (max (fld w 16 16) 1) ∧
            (s.linSends l = true → t.out.head? = some (.linHeader l id) ∧
              (SMap.find? v.pub id = none → (t.linc l).header = if bitErr then none else some id) ∧
              (∀ f, SMap.find? v.pub id = some (some f) → t.out = [.linHeader l id, .linTx l f (linSum id (v.enhanced id) f.data)])) ∧
            (s.linSends l = false → t.out = []) ∧ rest t)) ∧
        (v.on = false ∨ (v.armed = false ∧ v.active = false) ∨ passed v.slotEnd s.beat = false →
          Does (.linScheduleSlot ⟨l, bitErr⟩) s (· = { s with out := [] })) ∧
        (∀ id : BitVec 6,
          (s.linHears l = true → bit v.ctrl 1 = false →
            (SMap.find? v.pub id.toNat = none → Does (.linHeader ⟨l, bitErr⟩ id .none) s (fun t =>
              t.linc l = { v with header := some id.toNat } ∧ rest t ∧ t = { s with out := [], gw := t.gw })) ∧
            (∀ f, SMap.find? v.pub id.toNat = some (some f) → s.linSends l = true → Does (.linHeader ⟨l, bitErr⟩ id .none) s (fun t =>
              t.out = [.linTx l f (linSum id.toNat (v.enhanced id.toNat) f.data)] ∧ (t.linc l).header = none ∧ (t.linc l).pub = v.pub ∧ rest t ∧
              t.ctr (.lin l (if bitErr then .BIT_ERR else .TX_OK)) = s.ctr (.lin l (if bitErr then .BIT_ERR else .TX_OK)) + 1)) ∧
            (∀ err k, linErrCtr err = some k → Does (.linHeader ⟨l, bitErr⟩ id err) s (fun t =>
              (t.linc l).header = none ∧ t.ctr (.lin l k) = s.ctr (.lin l k) + 1 ∧ rest t))) ∧
          (s.linHears l = false ∨ bit v.ctrl 1 = true → ∀ err, Does (.linHeader ⟨l, bitErr⟩ id err) s (· = { s with out := [] })))) ∧
      (∀ (id : BitVec 6) (data : List Byte) (sum : Byte),
        let good := sum = linSum id.toNat (v.enhanced id.toNat) data
        (s.linHears l = true → v.header = some id.toNat →
          (good → v.rx.length < 64 → Does (.linResponseReceive l id ⟨data, sum⟩ .none) s (fun t =>
            t.linc l = { v with header := none, rx := v.rx ++ [{ frame := { kind := 2, id := id.toNat, data }, at_ := s.time.cnt }] } ∧
            rest t ∧ t.ctr (.lin l .RX_OK) = s.ctr (.lin l .RX_OK) + 1)) ∧
          (¬ good → Does (.linResponseReceive l id ⟨data, sum⟩ .none) s (fun t =>
            (t.linc l).header = none ∧ (t.linc l).rx = v.rx ∧ t.ctr (.lin l .CHECKSUM) = s.ctr (.lin l .CHECKSUM) + 1 ∧ rest t)) ∧
          (∀ err k, linErrCtr err = some k → Does (.linResponseReceive l id ⟨data, sum⟩ err) s (fun t =>
            (t.linc l).header = none ∧ (t.linc l).rx = v.rx ∧ t.ctr (.lin l k) = s.ctr (.lin l k) + 1 ∧ rest t))) ∧
        (s.linHears l = false ∨ v.header ≠ some id.toNat → ∀ err,
          Does (.linResponseReceive l id ⟨data, sum⟩ err) s (· = { s with out := [] }))) ∧
      (v.header.isSome = true → Does (.noResponse l) s (fun t =>
        (t.linc l).header = none ∧ t.ctr (.lin l .NO_RESPONSE) = s.ctr (.lin l .NO_RESPONSE) + 1 ∧ rest t)) ∧
      (v.header = none → Does (.noResponse l) s (· = { s with out := [] })))

/-- R26, R281, R283, R284: an open container that is due closes: it enters P23 or waits for it, and the tunnel starts a new
one; a container handed to the receiver is kept for its tunnel, unless no tunnel knows it or the buffer is full. Completes:
containerTimeout, tunnelContainerReceive. -/
def Obligations.Tunnels : Prop :=
  ∀ s : State, s.dOn = true →
    (∀ n : Fin 16,
      let v := s.tunnel n
      (s.tunDue n = true → Does (.containerTimeout n) s (fun t =>
        let f := s.container n v.txSeq v.msgs
        t.tunnel n = { v with msgs := [], txSeq := (v.txSeq + 1) % 256 } ∧
        t.ctr (.tun n .CONT_TX) = s.ctr (.tun n .CONT_TX) + 1 ∧ (∀ k, k ≠ n.val → t.tunnel k = s.tunnel k) ∧
        (f ∈ t.gw.closed ∨ ∃ h ∈ t.held, h.port = 23 ∧ h.bytes = f))) ∧
      (s.tunDue n = false → Does (.containerTimeout n) s (· = { s with out := [] }))) ∧
    (∀ k, (s.port 23).cur ≠ some k → Does (.tunnelContainerReceive k) s (· = { s with out := [] })) ∧
    (∀ k c, (s.port 23).cur = some k → s.copyOf k = some c → tunnelCopy c.bytes = true →
      let used := s.gw.rxBuf.foldl (fun a x => a + x.size) 0
      let sid := beNat ((partsOf c.bytes).rest.drop 2) 4 8
      (32768 < used + c.bytes.length → Does (.tunnelContainerReceive k) s (fun t =>
        (t.port 23).cur = none ∧ t.gw.rxBuf = s.gw.rxBuf ∧
        t.ctr (.device .TUN_RX_FULL) = s.ctr (.device .TUN_RX_FULL) + 1)) ∧
      (used + c.bytes.length ≤ 32768 → s.tunOf sid = none → Does (.tunnelContainerReceive k) s (fun t =>
        (t.port 23).cur = none ∧ t.gw.rxBuf = s.gw.rxBuf ∧
        t.ctr (.device .TUN_UNKNOWN) = s.ctr (.device .TUN_UNKNOWN) + 1)) ∧
      (∀ n, used + c.bytes.length ≤ 32768 → s.tunOf sid = some n → Does (.tunnelContainerReceive k) s (fun t =>
        (t.port 23).cur = none ∧ t.ctr (.tun n .CONT_RX) = s.ctr (.tun n .CONT_RX) + 1 ∧
        ∃ body, t.gw.rxBuf = s.gw.rxBuf ++ [{ tun := n, port := c.inPort, size := c.bytes.length, body }])))

/-! ### The host interface (chapter 12) -/

/-- R22, R351, R352, R354 to R356: a served HIF_KICK, or the data of a doorbell poll, carries the tails of TX, RX and command
rings: one within the ring is taken, one beyond it stops the ring and is flagged, and the device goes on with its TX rings; a
poll asked for is issued; the data of a poll that was abandoned are discarded, and an error is flagged. R352, R357, R358, R366,
R367, R372, R381: of the descriptors that a read of a TX ring asked for, one that the device owns is fetched, a malformed one
resolved with BAD_DESC (7), and on a ring that has stopped RING_RESET (9); the data of the oldest outstanding data read enter
P22's holding area, counted, with the tracking record reserved for the frame, and in the safe state the frame is lost; a failed
read resolves its descriptor with DMA_ERR (8); a served reset of a ring, and a reclaim, wait for the boundary. Completes:
hifKick, doorbellPollData, txDescriptorArrival, txDataArrival, dmaErr, ringReset, hifXwReclaim. -/
def Obligations.HostRings : Prop :=
  (∀ (s : State),
    let good := fun (r f : Nat) =>
      let g := s.ring r
      let d := (f + 65536 - g.known) % 65536
      s.ringOn r = true ∧ g.stop = false ∧ d ≠ 0 ∧ d < 2 ^ 15 ∧ (f + 65536 - g.head) % 65536 ≤ s.ringSize r
    let only := fun (t : State) => ∀ k, (t.ring k).known = (s.ring k).known ∧ (t.ring k).head = (s.ring k).head
    (Served s .HIF_KICK 0 →
      (∀ w, bit w 31 = false → fld w 21 2 < 2 ∨ fld w 21 2 = 2 ∧ fld w 16 5 < 2 →
        let r := 32 * fld w 21 2 + fld w 16 5
        let f := fld w 0 16
        (good r f → Does (.hifKick w) s (fun t =>
          (t.ring r).known = f ∧ (t.ring r).head = (s.ring r).head ∧ (∀ k, k ≠ r → (t.ring k).known = (s.ring k).known) ∧
          t.reg .HIF_BAR0_SEQ = s.reg .HIF_BAR0_SEQ + 1 ∧
          (s.dmaOk = false → t = { seqStep s with out := [], hif := { s.hif with ring := t.hif.ring } } ∧
            t.ring r = { s.ring r with known := f } ∧ ∀ k, k ≠ r → t.ring k = s.ring k))) ∧
        (s.ringOn r = true → (s.ring r).stop = false → (f + 65536 - (s.ring r).known) % 65536 ≠ 0 →
          (f + 65536 - (s.ring r).known) % 65536 < 2 ^ 15 → s.ringSize r < (f + 65536 - (s.ring r).head) % 65536 →
          Does (.hifKick w) s (fun t => t.ringOn r = false ∧ t.rbit .HIF_EVENT 2 = true ∧ only t)) ∧
        (s.ringOn r = false → Does (.hifKick w) s (fun t => only t ∧ (s.dmaOk = false → t = { seqStep s with out := [] })))) ∧
      (∀ w, fld w 21 2 = 2 → 2 ≤ fld w 16 5 → bit w 31 = true → s.rbit .HIF_CTRL 0 = true → s.dmaOk = true →
        (s.hif.poll = false → Does (.hifKick w) s (fun t => t.hif.poll = true ∧ only t ∧
          t.ctr (.device .DB_POLLS) = s.ctr (.device .DB_POLLS) + 1 ∧
          t.out.head? = some (.hostRead ((s.reg .HIF_DB_BASE_LO).toNat + 2 ^ 32 * (s.reg .HIF_DB_BASE_HI).toNat) 256))) ∧
        (s.hif.poll = true → Does (.hifKick w) s (fun t => t.hif.poll = true ∧ t.hif.pollAgain = true ∧ only t)))) ∧
    (s.dOn = true → ∀ data,
      (∀ err, s.hif.poll = false ∨ err = .late → Does (.doorbellPollData data err) s (· = { s with out := [] })) ∧
      (s.hif.poll = true → s.hif.pollAgain = false →
        Does (.doorbellPollData data .error) s (fun t => t.hif.poll = false ∧ t.rbit .HIF_EVENT 1 = true ∧ only t) ∧
        Does (.doorbellPollData data .data) s (fun t =>
          t.hif.poll = false ∧ ∀ r, r < 66 → good r (leNat data (2 * r) 2) → (t.ring r).known = leNat data (2 * r) 2)))) ∧
  (∀ (s : State),
    (∀ q : Fin 70, Served s (ringCmdReg q).1 (ringCmdReg q).2 → Does (.ringReset q) s (fun t =>
      t.ring q = { s.ring q with reset := true } ∧ (∀ k, k ≠ q.val → t.ring k = s.ring k) ∧
      t = { seqStep s with out := [], hif := t.hif })) ∧
    (∀ w, Served s .HIF_XW_RECLAIM 0 → Does (.hifXwReclaim w) s (fun t =>
      t = { seqStep s with out := [], hif := { s.hif with reclaim := s.hif.reclaim ++ [(fld w 0 16, fld w 16 16 + 1)] } })) ∧
    (s.dOn = true →
      (∀ r : Fin 32,
        let g := s.ring r
        (g.asked = 0 → ∀ ds, Does (.txDescriptorArrival r ds) s (· = { s with out := [] })) ∧
        (∀ d : List Word, g.asked ≠ 0 → (∀ x ∈ g.fetched, x.idx ≠ g.next) → s.canFetch r = true →
          (bit (wd d 2) 31 = true → Does (.txDescriptorArrival r [d]) s (fun t =>
            (t.ring r).fetched.length = g.fetched.length + 1 ∧ ∃ e ∈ (t.ring r).fetched, e.idx = g.next ∧ e.words = d ∧
              (g.stop = true → e.state = 3 ∧ e.status = 9) ∧ (g.stop = false → txBad d = true → e.state = 3 ∧ e.status = 7) ∧
              (g.stop = false → txBad d = false → s.twin.safe = false → e.state = 0 ∨ e.state = 4))) ∧
          (bit (wd d 2) 31 = true → g.stop = false → s.bug.txSilent = true → s.twin.safe = false →
            Does (.txDescriptorArrival r [d]) s (fun t =>
              t.ring r = { g with asked := 0, fetched := g.fetched ++ [{ idx := g.next, words := d, state := if txBad d then 3 else 0,
                                                                         status := if txBad d then 7 else 0 }] } ∧
              (∀ k, k ≠ r.val → t.ring k = s.ring k) ∧ t = { s with out := [], hif := t.hif })) ∧
          (bit (wd d 2) 31 = false → Does (.txDescriptorArrival r [d]) s (fun t =>
            (t.ring r).fetched.length = g.fetched.length ∧ (t.ring r).known = (if g.stop then g.next else g.known)))) ∧
        (g.reading = none → ∀ data, Does (.txDataArrival r data) s (· = { s with out := [] })) ∧
        (∀ (d : Desc) (data : List Byte), g.reading = some d →
          let n := wfld d.words 2 0 14
          let bytes := (slice data 0 (max n 60)).take n ++ List.replicate (60 - n) 0
          (s.twin.safe = false → (updDesc s r d.idx (fun d => { d with state := 2 })).holdRoom 22 (blocksOf bytes.length) = true →
            Does (.txDataArrival r data) s (fun t =>
              (∃ h : Held, t.held = s.held ++ [h] ∧ h.port = 22 ∧ h.src = .host r d.idx ∧ h.bytes = bytes ∧ h.track = some d.track) ∧
              (∀ x ∈ (t.ring r).fetched, x.idx = d.idx → x.state = 2) ∧
              t.ctr (.ring r .FRAMES) = s.ctr (.ring r .FRAMES) + 1)) ∧
          (s.twin.safe = true → Does (.txDataArrival r data) s (fun t => t.held = s.held ∧
            ∀ x ∈ (t.ring r).fetched, x.idx = d.idx → x.state = 3 ∧ x.status = 2))) ∧
        (s.ringOn r = true →
          (∀ d : Desc, g.reading = some d → Does (.dmaErr (Fin.castLE (by decide) r)) s (fun t =>
            t.rbit .HIF_EVENT 4 = true ∧ ∀ x ∈ (t.ring r).fetched, x.idx = d.idx → x.state = 3 ∧ x.status = 8)) ∧
          (g.reading = none → g.asked ≠ 0 → (∀ x ∈ g.fetched, x.idx ≠ g.next) → Does (.dmaErr (Fin.castLE (by decide) r)) s (fun t =>
            t.rbit .HIF_EVENT 4 = true ∧ (t.ring r).fetched.length = g.fetched.length + 1 ∧
            ∃ e ∈ (t.ring r).fetched, e.idx = g.next ∧ e.state = 3 ∧ e.status = 8)))) ∧
      (∀ q : Fin 70,
        (s.ringOn q = false → Does (.dmaErr q) s (· = { s with out := [] })) ∧
        (s.ringOn q = true → q.val = 64 ∨ q.val = 65 → ∀ d, (s.ring q).fetched.find? (fun x => x.state == 1) = some d →
          Does (.dmaErr q) s (fun t => t.rbit .HIF_EVENT 4 = true ∧
            (t.ring q).fetched = (s.ring q).fetched.map (fun x => if x.idx = d.idx then { x with state := 3, status := 8 } else x))))))

/-- R352, R496, R504: FLR and PERST_N return the host interface to its reset state: no ring, no window request, no interrupt is
left; PERST_N also stops the PCIE domain, and its release starts it; Bus Master Enable alone stops and allows DMA, with which
the TX rings go on. Completes: flr, perstN, perstNRelease, busMasterEnableClear, busMasterEnableSet. -/
def Obligations.HostResets : Prop :=
  ∀ s : State, s.dOn = true →
    let hifRegs := fun (t : State) => ∀ r i j, 0x30000 ≤ r.addr i j → r.addr i j < 0x50000 →
      r.addr i j ≠ Reg.HIF_EVENT.addr 0 0 → t.reg r i j = r.resetAt i j
    (s.hif.perst = false → Does .flr s (fun t =>
      t.hif = { evSeq := s.hif.evSeq } ∧ t.rbit .HIF_EVENT 5 = true ∧ hifRegs t ∧ t.copies.length = s.copies.length)) ∧
    (s.hif.perst = true → Does .flr s (· = { s with out := [] })) ∧
    Does .perstN s (fun t =>
      t.hif = { perst := true, evSeq := s.hif.evSeq } ∧ t.clkRuns 10 = false ∧ hifRegs t) ∧
    Does .perstNRelease s (fun t =>
      t.hif = { s.hif with perst := false } ∧ t.clkRuns 10 = s.clk.pcieRef ∧ t = { s with out := [], regs := t.regs, hif := t.hif }) ∧
    Does .busMasterEnableClear s (· = { s with out := [], hif := { s.hif with bme := false } }) ∧
    (s.hif.perst = false → Does .busMasterEnableSet s (fun t =>
      t.hif.bme = true ∧ t = { s with out := t.out, hif := t.hif, tracks := t.tracks } ∧
      (∀ k, (t.ring k).known = (s.ring k).known ∧ (t.ring k).head = (s.ring k).head) ∧
      ((∀ r, r < 32 → (s.ring r).next = (s.ring r).known ∧ (s.ring r).waiting = none) →
        t = { s with out := [], hif := { s.hif with bme := true } }))) ∧
    (s.hif.perst = true → Does .busMasterEnableSet s (· = { s with out := [] }))

/-- R373, R375 to R377, R379: host accesses to BAR4. A write to a disabled window, or to a peer one that is not of whole DWs of
its register map, is logged at its first failing address and counted in FAILS; one to a peer takes the next WIN_SEQ and its
request is sent or waits, as does a read; a read of a disabled window gives all ones and is flagged, and one that fails gives
Completer Abort; with 64 requests waiting an access waits; a LOCAL window reads and writes BAR0. R351, R374, R375, R377 to
R379: a response ends the request it names, and a stray one is counted; a request unanswered for 2 ms ends; a fence read
answers with FAILS once no write is left, and clears it; a served pop takes the oldest entry of the log; a request of a peer
that no entry accepts is answered DENIED, one beyond the 16 slots of its entry refused, a READ answered with its data and a
WRITE applied. Completes: winWrite, winRead, localWindowAccess, ezsynResponse, winTimeout, winFenceRead, winPwePop,
ezsynRequest. -/
def Obligations.RegisterWindow : Prop :=
  (∀ (s : State) (acc : WinAccess),
    (s.dOn = true → s.hostUp = false → Does (.winWrite acc) s (· = { s with out := [] }) ∧ Does (.winRead acc) s (· = { s with out := [] }) ∧
      ∀ wr, Does (.localWindowAccess wr acc) s (· = { s with out := [] })) ∧
    (s.dOn = true → s.hostUp = true →
      let w := acc.w
      let v := s.win w
      let seq := (v.seq + 1) % 2 ^ 32
      let addr := s.winTarget acc
      let swap := s.rbit .WIN_CFG 1 w
      let dws := touched acc.off.toNat acc.bytes.length
      let logged := fun (a n cause : Nat) (t : State) =>
        t.hif.pwe = s.hif.pwe ++ [[BitVec.ofNat 32 (w.val + 256 * cause), BitVec.ofNat 32 (a % 2 ^ 26), BitVec.ofNat 32 n,
          BitVec.ofNat 32 s.beat.toNat]] ∧ (t.win w).fails = min (v.fails + 1) 0xFFFFFF ∧ t.rbit .WIN_EVENT w = true
      let aborted := fun (t : State) => t.out = [.abort] ∧ t.rbit .WIN_EVENT 10 = true
      (s.rbit .WIN_CFG 0 w = false →
        (s.hif.pwe.length < 64 → Does (.winWrite acc) s (logged addr v.seq 8)) ∧
        Does (.winRead acc) s (fun t => t.out = [.read 0xFFFFFFFF] ∧ t.rbit .WIN_EVENT 10 = true ∧ t.hif.win = s.hif.win)) ∧
      (s.rbit .WIN_CFG 0 w = true → s.rbit .WIN_CFG 2 w = false →
        (s.winWaiting < 64 → s.twin.safe = false →
          (acc.bytes ≠ [] → (∀ d ∈ dws, (s.reg .WIN_BASE w).toNat + 4 * d < 2 ^ 26 ∧ (laneDw acc swap d).1 = 0xF#4) →
            Does (.winWrite acc) s (fun t =>
              (t.win w).seq = seq ∧ ∃ q ∈ (t.win w).out ++ (t.win w).wait, q.seq = seq ∧ q.write = true ∧ q.addr = addr ∧
                q.payload = dws.flatMap (fun d => (laneDw acc swap d).2))) ∧
          (addr + acc.len ≤ 2 ^ 26 → addr < 2 ^ 26 → acc.len ≤ 64 → Does (.winRead acc) s (fun t =>
            (t.win w).seq = seq ∧ ∃ q ∈ (t.win w).out ++ (t.win w).wait, q.seq = seq ∧ q.write = false ∧ q.addr = addr / 4 * 4 ∧
              q.want = (acc.off.toNat, acc.len)))) ∧
        (∀ a c, s.winWaiting < 64 → s.hif.pwe.length < 64 → s.peerBad acc = some (a, c) → Does (.winWrite acc) s (logged a seq c)) ∧
        (s.winWaiting < 64 → 2 ^ 26 < addr + acc.len ∨ s.twin.safe = true → acc.len ≤ 64 → Does (.winRead acc) s aborted) ∧
        (64 ≤ s.winWaiting → Does (.winWrite acc) s (· = { s with out := [.waits] }) ∧
          (acc.len ≤ 64 → Does (.winRead acc) s (· = { s with out := [.waits] })))) ∧
      (s.rbit .WIN_CFG 0 w = true → 64 < acc.len → Does (.winRead acc) s aborted) ∧
      (s.rbit .WIN_CFG 0 w = true → s.rbit .WIN_CFG 2 w = true → swap = false → acc.off.toNat % 4 = 0 →
        (addr = 0 → acc.len = 4 → Does (.localWindowAccess false acc) s (fun t =>
          t.out = [.readBytes w (leBytes (if s.part = .am7240 then 0x00B07240 else 0x00B07220) 4)])) ∧
        (2 ^ 26 ≤ addr → acc.len = 4 → Does (.localWindowAccess false acc) s aborted) ∧
        (∀ b0 b1 b2 b3 r i j, acc.bytes = [(b0, true), (b1, true), (b2, true), (b3, true)] → addr < 2 ^ 26 →
          Reg.at? (keepAlias addr) = some (r, i, j) → s.writeRefusal addr 0xF 1 = none →
          s.partLacks r i = false → classLacks r i = false → cryReg r = false → (∀ x w v, writeCmd x r i w v = none) →
          r.addr i j ≠ Reg.HIF_BAR0_SEQ.addr 0 0 → r.row.acc = .rw → r.row.cfg = false →
          Does (.localWindowAccess true acc) s (fun t =>
            t.reg r i j = storeForm s r i (leWord [b0, b1, b2, b3] 0) ∧ t.reg .HIF_BAR0_SEQ = s.reg .HIF_BAR0_SEQ + 1))))) ∧
  (∀ (s : State),
    (Served s .WIN_PWE_POP 0 → Does .winPwePop s (· = { seqStep s with out := [], hif := { s.hif with pwe := s.hif.pwe.drop 1 } })) ∧
    (s.dOn = true →
      (∀ x : EzResp,
        let found := (s.win x.win).out.find? (fun q => q.seq == x.seq.toNat && ezAnswers x.kind q.write)
        (found = none → Does (.ezsynResponse x) s (fun t =>
          t = { s with out := [], ctrs := t.ctrs } ∧ t.ctr (.device .WIN_STRAY) = s.ctr (.device .WIN_STRAY) + 1)) ∧
        (∀ q, found = some q → Does (.ezsynResponse x) s (fun t =>
          (∀ r ∈ (t.win x.win).out ++ (t.win x.win).wait, r.seq ≠ q.seq) ∧
          (x.kind = .readData → t.out.head? = some (.readBytes x.win
            (laneRead q.want.1 q.want.2 (s.rbit .WIN_CFG 1 x.win) x.payload))) ∧
          (x.kind = .nack → q.write = false → t.out.head? = some .abort)))) ∧
      (∀ w : Fin 8,
        let v := s.win w
        let late := v.out.find? (fun q => decide (winLimit ≤ (s.time.cnt - q.sent).toNat))
        (∀ q, late = some q → s.twin.safe = false → v.fence = [] → Does (.winTimeout w) s (fun t =>
          (∀ r ∈ (t.win w).out ++ (t.win w).wait, r.seq ≠ q.seq) ∧
          (q.write = true → (t.win w).fails = min (v.fails + 1) 0xFFFFFF) ∧ (q.write = false → t.out.head? = some .abort))) ∧
        (late = none → Does (.winTimeout w) s (· = { s with out := [] })) ∧
        (s.hostUp = true → v.fence = [] →
          (v.settled v.seq = true → Does (.winFenceRead w) s (fun t =>
            t.out = [.read v.fenceWord] ∧ t.win w = { v with fails := 0 } ∧ ∀ k, k ≠ w.val → t.win k = s.win k)) ∧
          (v.settled v.seq = false → Does (.winFenceRead w) s (fun t =>
            t.out = [] ∧ t.win w = { v with fence := [{ seq := v.seq }] } ∧ ∀ k, k ≠ w.val → t.win k = s.win k))) ∧
        (s.hostUp = false → Does (.winFenceRead w) s (· = { s with out := [] }))) ∧
      (∀ rq : EzReq,
        let frame := fun (type len addr cause : Nat) (data : List Byte) => s.ezFrame (beBytes rq.smac.toNat 6) (s.rfld .WIN_CTRL 16 3)
          rq.vid.toNat type len rq.seq.toNat addr rq.win.toNat cause data
        let answers := fun (t : State) (e : Nat) (f : List Byte) =>
          (∃ x ∈ t.hif.answers, x.entry = e ∧ x.bytes = f) ∨ ∃ h ∈ t.held, h.port = 23 ∧ h.bytes = f
        (s.clk.shepDown = true ∨ s.twin.safe = true → Does (.ezsynRequest rq) s (· = { s with out := [] })) ∧
        (s.clk.shepDown = false → s.twin.safe = false →
          (s.acceptOf rq.smac.toNat rq.vid.toNat = none →
            Does (.ezsynRequest rq) s (fun t => answers t 8 (frame 5 0 rq.addr.toNat 6 []) ∧ t.regs = s.regs)) ∧
          (∀ a, s.acceptOf rq.smac.toNat rq.vid.toNat = some a →
            (16 ≤ s.slotsUsed a → Does (.ezsynRequest rq) s (fun t => answers t 8 (frame 5 0 rq.addr.toNat 9 []) ∧ t.regs = s.regs)) ∧
            (s.slotsUsed a < 16 → rq.write = false → rq.addr = 0 → rq.len = 4 → Does (.ezsynRequest rq) s (fun t =>
              answers t a (frame 4 4 0 0 (leBytes (if s.part = .am7240 then 0x00B07240 else 0x00B07220) 4)))) ∧
            (∀ r i j, s.slotsUsed a < 16 → rq.write = true → rq.payload.length = 4 →
              Reg.at? (keepAlias rq.addr.toNat) = some (r, i, j) → s.writeRefusal rq.addr.toNat 0xF 1 = none →
              s.partLacks r i = false → classLacks r i = false → cryReg r = false → (∀ x w v, writeCmd x r i w v = none) →
              r.addr i j ≠ Reg.HIF_BAR0_SEQ.addr 0 0 → r.row.acc = .rw → r.row.cfg = false →
              Does (.ezsynRequest rq) s (fun t =>
                t.reg r i j = storeForm s r i (leWord rq.payload 0) ∧ t.reg .HIF_BAR0_SEQ = s.reg .HIF_BAR0_SEQ + 1)))))))

/-! ### Keys and the Retriever (chapters 13 and 14) -/

/-- R388, R396 to R399, R402, R403, R407: the key commands of a ring: IMPORT and IMPORT_PLAIN of a blob that holds ask for a
store update and run until it ends, as ERASE does; EXPORT of a READY slot returns its key under AUX, its header first, and INFO
a record's header and key check; LOAD starts a load and EVICT leaves the slot STORED without its key, and a load of it goes on.
With no record the code is 1, with LOCK = 1 IMPORT_PLAIN's is 6, of a key not exportable EXPORT's is 5, of a blob that does not
unwrap IMPORT's is 3, and with a second lane mismatch 8. A command that may not start yet waits. The unwrapping is that of RFC
3394 (log entry 75). Completes: keyImport, keyImportPlain, keyExport, keyErase, keyLoad, keyEvict, keyInfo. -/
def Obligations.KeyCommands : Prop :=
  ∀ (s : State) (r : Fin 2) (idx : BitVec 16) (desc data : List Word) (core : Fin 4), s.dOn = true →
    let k := keySlot desc
    let v := s.slot k
    let aux := s.slot (keyAux desc)
    let found := SMap.find? s.cry.recs k
    let asked := fun (t : State) (a : Option KeyRec) (key : List Byte) =>
      t.cry.upd = s.cry.upd ++ [{ slot := k, new := a, key, owner := (r.val, idx.toNat), at_ := keyBeat desc }] ∧ CmdRuns t r idx ∧
      t.cry.slot = s.cry.slot
    let ends := fun (n : Nat) (t : State) => CmdEnds t r idx n ∧ t.cry = s.cry
    let wraps := aux.st = .ready ∧ maskBit aux.attr.use useWrap = true
    (CmdStarts s r idx (keyDesc desc 1) → wraps → blobOk data false = true →
      let a := blobRec data
      let p := keyUnwrap aux.key (a.wrapBytes (slice (wordsBytes data) 16 48))
      (∀ b key, p = some b → a.keyOf b = some key → Does (.keyImport r idx desc data 0 { core }) s (fun t =>
        asked t (some { a with wrapped := a.wrapUnder Config.rootKek key }) key)) ∧
      (p = none → Does (.keyImport r idx desc data 0 { core }) s (ends 3))) ∧
    (CmdStarts s r idx (keyDesc desc 2) →
      (s.rbit .GLB_LOCK 0 = false → blobOk data true = true →
        let a := blobRec data
        let key := slice (wordsBytes data) 16 a.keyLen
        Does (.keyImportPlain r idx desc data 0 core) s (fun t =>
          asked t (some { a with wrapped := a.wrapUnder Config.rootKek key }) key) ∧
        Does (.keyImportPlain r idx desc data 2 core) s (ends 8)) ∧
      (s.rbit .GLB_LOCK 0 = false → blobOk data true = false → Does (.keyImportPlain r idx desc data 0 core) s (ends 2)) ∧
      (s.rbit .GLB_LOCK 0 = true → Does (.keyImportPlain r idx desc data 0 core) s (ends 6))) ∧
    (CmdStarts s r idx (keyDesc desc 3) →
      (found = none → Does (.keyExport r idx desc data 0 { core }) s (ends 1)) ∧
      (∀ a, found = some a → a.exportable = false → Does (.keyExport r idx desc data 0 { core }) s (ends 5)) ∧
      (∀ a, found = some a → a.exportable = true → v.st = .ready → v.attr.exportable = true → wraps →
        Does (.keyExport r idx desc data 0 { core }) s (fun t => ends 0 t ∧
          CmdShows t r idx (fun d => d.data = v.attr.header ++ leWords (v.attr.wrapUnder aux.key v.key) 0 12)))) ∧
    (CmdStarts s r idx (keyDesc desc 4) →
      (found = none → Does (.keyErase r idx desc data) s (ends 1)) ∧
      (found.isSome = true → Does (.keyErase r idx desc data) s (fun t => asked t none []))) ∧
    (CmdStarts s r idx (keyDesc desc 5) →
      (found = none → Does (.keyLoad r idx desc data) s (ends 1)) ∧
      (∀ a, found = some a → Does (.keyLoad r idx desc data) s (fun t =>
        t.slot k = { v with st := .loading, attr := a } ∧ k ∈ t.cry.loadQ ∧ CmdRuns t r idx ∧ ∀ j, j ≠ k → t.slot j = s.slot j))) ∧
    (CmdStarts s r idx (keyDesc desc 6) →
      (found = none → Does (.keyEvict r idx desc data) s (ends 1)) ∧
      (∀ a, found = some a → Does (.keyEvict r idx desc data) s (fun t =>
        (t.slot k).st = .stored ∧ (t.slot k).key = [] ∧ (t.slot k).key1 = [] ∧ t.cry.loadQ = s.cry.loadQ ∧ CmdEnds t r idx 0 ∧
        ∀ j, j ≠ k → t.slot j = s.slot j))) ∧
    (CmdStarts s r idx (keyDesc desc 7) →
      (found = none → Does (.keyInfo r idx desc data 0 core) s (ends 1)) ∧
      (∀ a key, found = some a → a.clear = some key → Does (.keyInfo r idx desc data 0 core) s (fun t =>
        ends 0 t ∧ CmdShows t r idx (fun d => d.data.take 5 = a.header ++ [slotChk key >>> 8])))) ∧
    (∀ op c, (op, c) ∈ [(1, Instr.keyImport r idx desc data 0 { core }), (2, .keyImportPlain r idx desc data 0 core),
        (3, .keyExport r idx desc data 0 { core }), (4, .keyErase r idx desc data), (5, .keyLoad r idx desc data),
        (6, .keyEvict r idx desc data), (7, .keyInfo r idx desc data 0 core)] →
      s.cmdOpen r idx.toNat (keyDesc desc op) = false → Does c s (· = { s with out := [.waits] }))

/-- R388, R389, R400, R402, R404 to R406: a store update that ends well puts the new store, sealed, in force at the other copy
and stages its slot's swap; one that fails leaves the old store; one with a second lane mismatch ends with it; a load that ends
leaves the slot READY with its record's key in both copies, or UNUSABLE; a core with three mismatches leaves service.
Completes: keyStoreUpdate, slotLoadDone, coreFailed. -/
def Obligations.KeyStoreAndCores : Prop :=
  ∀ (s : State) (core : Fin 4), s.dOn = true →
    (∀ u rest, s.cry.upd = u :: rest →
      let recs := match u.new with | some a => SMap.put s.cry.recs u.slot a | none => SMap.erase s.cry.recs u.slot
      Does (.keyStoreUpdate ⟨true, 0, core⟩) s (fun t =>
        t.cry.upd = rest ∧ t.cry.seq = s.cry.seq + 1 ∧ t.cry.copy = !s.cry.copy ∧ t.cry.recs = recs ∧
        t.cry.store (!s.cry.copy) = storeImage (s.cry.seq + 1) recs ∧ t.cry.store s.cry.copy = s.cry.store s.cry.copy ∧
        (t.slot u.slot).swapAt.isSome = true ∧ (t.slot u.slot).next = u.new.map (fun a => (a, u.key)) ∧
        (t.slot u.slot).key = (s.slot u.slot).key ∧ ∀ j, j ≠ u.slot → t.slot j = s.slot j) ∧
      Does (.keyStoreUpdate ⟨false, 0, core⟩) s (fun t =>
        t.cry.upd = rest ∧ t.cry.seq = s.cry.seq ∧ t.cry.copy = s.cry.copy ∧ t.cry.recs = s.cry.recs ∧ t.cry.slot = s.cry.slot ∧
        t.cry.store (!s.cry.copy) = {} ∧ t.rbit .CRY_EVENT 3 = true) ∧
      ∀ ok, Does (.keyStoreUpdate ⟨ok, 2, core⟩) s (fun t => t.cry = { s.cry with upd := rest } ∧ t.rbit .CRY_EVENT 0 = true)) ∧
    (s.cry.upd = [] → ∀ ok l, Does (.keyStoreUpdate ⟨ok, l, core⟩) s (· = { s with out := [] })) ∧
    (∀ (k : Fin 64) rest a, s.cry.loadQ = k.val :: rest → SMap.find? s.cry.recs k = some a →
      (∀ key, a.clear = some key → Does (.slotLoadDone k ⟨0, core⟩) s (fun t =>
        t.slot k = { s.slot k with st := .ready, attr := a, key, chk := slotChk key, attr1 := a, key1 := key, chk1 := slotChk key } ∧
        t.cry.loadQ = rest ∧ ∀ j, j ≠ k.val → t.slot j = s.slot j)) ∧
      (a.clear = none → Does (.slotLoadDone k ⟨0, core⟩) s (fun t =>
        (t.slot k).st = .unusable ∧ (t.slot k).key = [] ∧ t.cry.loadQ = rest ∧ ∀ j, j ≠ k.val → t.slot j = s.slot j)) ∧
      Does (.slotLoadDone k ⟨2, core⟩) s (fun t => (t.slot k).st = .unusable ∧ (t.slot k).key = [] ∧ t.cry.loadQ = rest ∧
        t.rbit .CRY_EVENT 0 = true ∧ ∀ j, j ≠ k.val → t.slot j = s.slot j)) ∧
    (∀ k : Fin 64, s.cry.loadQ.head? ≠ some k.val → ∀ l, Does (.slotLoadDone k ⟨l, core⟩) s (· = { s with out := [] })) ∧
    (s.coreOk core = true →
      (3 ≤ s.rfld .CRY_CORE_STATUS (8 * core) 8 → Does (.coreFailed core) s (fun t =>
        t.coreOk core = false ∧ t.rbit .CRY_STATUS core = false ∧ t.rbit .CRY_EVENT 1 = true)) ∧
      (s.rfld .CRY_CORE_STATUS (8 * core) 8 < 3 → Does (.coreFailed core) s (· = { s with out := [] }))) ∧
    (s.coreOk core = false → Does (.coreFailed core) s (· = { s with out := [] }))

/-- R372, R388, R394, R410 to R415: a tap reads its next copy; a sector open for FLUSH beats is closed; the oldest closed
sector is encrypted and written to its slab, or fails, and the next serial follows; a slab that is not the device's makes the
tap wait. R351, R417 to R420: a trigger is taken while recording, with its source and instant, and otherwise ignored and
flagged; at T + POST the taps freeze; REARM records again. Completes: tapRead, sectorFlush, sectorWrite, recTrigger,
announcementReceive, recFreeze, rearm. -/
def Obligations.Recorder : Prop :=
  (∀ (s : State) (n : Fin 2), s.dOn = true →
    let tp := s.rtap n
    let slab := tp.slabOf tp.serial
    (∀ k c, s.ret.mode = .recording ∨ s.ret.mode = .post → tp.frozen = false → s.rbit .REC_TAP_CFG 0 n = true → s.copyOf k = some c →
      tapNext k tp.queue = true → c.tap.contains n.val = true → Does (.tapRead n k) s (fun t =>
        (∀ c', t.copyOf k = some c' → c'.tap = c.tap.filter (· != n.val)) ∧
        (t.rtap n).queue = (tp.queue.dropWhile (fun x => x != .copy k)).drop 1 ∧
        t.ctr (.tap n .COPIES) = s.ctr (.tap n .COPIES) + 1)) ∧
    (∀ k, s.ret.mode = .idle ∨ s.ret.mode = .frozen ∨ tp.frozen = true ∨ s.copyOf k = none ∨ tapNext k tp.queue = false →
      Does (.tapRead n k) s (· = { s with out := [] })) ∧
    (tp.open_ = none → Does (.sectorFlush n) s (· = { s with out := [] })) ∧
    (∀ x, tp.open_ = some x →
      let due := max (s.rfld .REC_TAP_CFG 9 7 n) 1 ≤ (s.beat - x.opened).toNat
      (due → Does (.sectorFlush n) s (fun t =>
        t.rtap n = { tp with open_ := none, full := tp.full ++ [{ x with last := false }] } ∧
        t = { s with out := [], ret := t.ret })) ∧
      (¬ due → Does (.sectorFlush n) s (· = { s with out := [] }))) ∧
    (tp.full = [] → ∀ f rep rep1, Does (.sectorWrite n f ⟨rep, rep1⟩) s (· = { s with out := [] })) ∧
    (∀ x rest flag, tp.full = x :: rest → tp.rolling = false →
      (s.dmaOk = false → ∀ rep rep1, Does (.sectorWrite n flag ⟨rep, rep1⟩) s (· = { s with out := [] })) ∧
      (s.dmaOk = true →
        (s.slabOk slab flag = true →
          (∀ rep rep1, Does (.sectorWrite n flag ⟨rep, rep1⟩) s (fun t =>
            (t.rtap n).serial = tp.serial + 1 ∧ (t.rtap n).full = rest ∧ t.flagOf slab = flagWith flag (flagOwner (t.flagOf slab)) ∧
            (rep.mismatch = true → t.ctr (.tap n .REC_FAIL) = s.ctr (.tap n .REC_FAIL) + 1 ∧ flagOwner (t.flagOf slab) = 3))) ∧
          (let u := xtsKeys (flagsSeen s.quiet [(slab, flag)]) n {} {}
           ∀ ks, u.1 = some ks → (xtsCore u.2).1.isSome = true → Does (.sectorWrite n flag {}) s (fun t =>
             t.out.head? = some (.hostWrite (s.slabAddr slab)
               (xts ks.1 ks.2 (sectorTweak n tp.serial (s.reg .KEEP_CTR 30)) (sectorBytes n tp.serial x))) ∧
             t.ctr (.tap n .SECTORS) = s.ctr (.tap n .SECTORS) + 1 ∧ flagOwner (t.flagOf slab) = 2))) ∧
        (s.slabOk slab flag = false → ∀ rep rep1, Does (.sectorWrite n flag ⟨rep, rep1⟩) s (fun t =>
          t.ret = s.ret ∧ t = { s with out := [], hif := t.hif }))))) ∧
  (∀ s : State,
    (Served s .REC_CMD 0 →
      (s.ret.mode = .recording → Does .recTrigger s (fun t =>
        t.ret.mode = .post ∧ t.ret.source = 1 ∧ t.ret.trig = s.now0 ∧ t.ret.trigAt = s.beat ∧ t.rbit .REC_EVENT 0 = true)) ∧
      (s.ret.mode = .frozen → Does .recTrigger s (fun t => t.ret = s.ret ∧ t.rbit .REC_EVENT 3 = true ∧
        ∀ n : Fin 2, s.rbit .REC_TAP_CFG 0 n = true → t.ctr (.tap n .TRIG_IGNORED) = s.ctr (.tap n .TRIG_IGNORED) + 1)) ∧
      (s.ret.mode = .idle → Does .recTrigger s (· = { seqStep s with out := [] })) ∧
      (s.ret.mode = .frozen → Does .rearm s (fun t =>
        t.ret.mode = .recording ∧ (∀ n : Fin 2, (t.rtap n).frozen = false ∧ (t.rtap n).ring = s.reg .REC_TAP_RING n) ∧
        t = { seqStep s with out := [], ret := t.ret })) ∧
      (s.ret.mode ≠ .frozen → Does .rearm s (· = { seqStep s with out := [] }))) ∧
    (s.dOn = true →
      (∀ k, (s.port 23).cur ≠ some k → Does (.announcementReceive k) s (· = { s with out := [] })) ∧
      (∀ k c, (s.port 23).cur = some k → s.copyOf k = some c →
        let p := partsOf c.bytes
        (s.announced p = true → s.ret.mode = .recording → Does (.announcementReceive k) s (fun t =>
          t.ret.mode = .post ∧ t.ret.source = 4 ∧ t.ret.trig = BitVec.ofNat 64 (beNat p.rest 2 8))) ∧
        (s.announced p = true → s.ret.mode = .idle → tunnelCopy c.bytes = false → Does (.announcementReceive k) s (fun t =>
          t.ret.mode = .idle ∧ (t.port 23).cur = none)) ∧
        (s.announced p = false → Does (.announcementReceive k) s (· = { s with out := [] }))) ∧
      (let due := s.ret.trig.toNat + s.rfld .REC_SPAN 0 16 * 100000000 ≤ s.now0.toNat
       (s.ret.mode = .post → due → Does .recFreeze s (fun t => t.ret.mode = .frozen ∧ t.rbit .REC_EVENT 1 = true)) ∧
       (s.ret.mode ≠ .post ∨ ¬ due → Does .recFreeze s (· = { s with out := [] })))))

/-! ### Bugle: sleep, wakes and supplies (chapter 15) -/

/-- R351, R443, R444, R446, R450, R451, R457: served writes of BUG_SLEEP_CMD: a request of the host waits for the boundary with
its target and FORCE, and TARGET 0 is none, and a further command of the same write has its own effect; CANCEL aborts a sleep
in PREPARE or STOPPED, which is counted and flagged; ACK releases the host's hold; WAKE leaves DOZE at the next boundary. A
partner's acknowledgement ends its wait, and its request is noted and handed to the Bugle engines. R444 to R447: PREPARE ends
with the stop once no hold remains, or with its timeout, which is flagged; a stopped sleep is committed unless a wake is
latched, which aborts it; after the commit the D-die is off and the power state is the target's. Completes: sleepRequest,
forcedSleepRequest, dozeRequest, sleepCancel, sleepAck, dozeWake, tc10SleepAck, tc10SleepRequestReceive, sleepStop,
prepTimeout, sleepCommit, dDieDown. -/
def Obligations.Sleep : Prop :=
  (∀ (s : State),
    (Served s .BUG_SLEEP_CMD 0 →
      let bug := fun (b : Bugle) (t : State) => t = { seqStep s with out := [], bug := b }
      (∀ w,
        let hold := if bit w 6 then false else s.bug.holdHost
        (bit w 5 = false ∨ s.bug.seq = .run ∨ s.bug.seq = .committed → bit w 7 = false ∨ s.bug.power ≠ .doze →
          (fld w 0 2 ≠ 0 →
            Does (.sleepRequest w) s (bug { s.bug with holdHost := hold, reqNext := some (fld w 0 2, false) }) ∧
            Does (.forcedSleepRequest w) s (bug { s.bug with holdHost := hold, reqNext := some (fld w 0 2, true) })) ∧
          (fld w 0 2 = 0 → Does (.sleepRequest w) s (bug { s.bug with holdHost := hold }) ∧
            Does (.forcedSleepRequest w) s (bug { s.bug with holdHost := hold })) ∧
          Does (.dozeRequest w) s (bug { s.bug with holdHost := hold, reqNext := some (1, bit w 8) })) ∧
        (bit w 5 = true → s.bug.seq = .prepare ∨ s.bug.seq = .stopped → s.bug.aborting = false → fld w 0 2 ≠ 0 →
          Does (.sleepRequest w) s (fun t => t.bug.aborting = true ∧ t.bug.reqNext = some (fld w 0 2, false))) ∧
        (bit w 5 = false → bit w 7 = true → s.bug.power = .doze → s.bug.seq = .run → s.bug.wakeNext = none → fld w 0 2 ≠ 0 →
          Does (.sleepRequest w) s (bug { s.bug with holdHost := hold, wakeNext := some (9, 0), reqNext := some (fld w 0 2, false) }))) ∧
      (s.bug.seq = .prepare ∨ s.bug.seq = .stopped → s.bug.aborting = false → Does .sleepCancel s (fun t =>
        t.bug = { s.bug with aborting := true } ∧ t.rfld .BUG_ABORT 0 4 = 9 ∧
        t.rfld .BUG_ABORT 16 16 = min (s.rfld .BUG_ABORT 16 16 + 1) 65535 ∧ t.rbit .BUG_EVENT 1 = true)) ∧
      (s.bug.seq = .run ∨ s.bug.seq = .committed ∨ s.bug.aborting = true → Does .sleepCancel s (· = { seqStep s with out := [] })) ∧
      Does .sleepAck s (bug { s.bug with holdHost := false }) ∧
      (s.bug.power = .doze → s.bug.seq = .run → s.bug.wakeNext = none → Does .dozeWake s (bug { s.bug with wakeNext := some (9, 0) })) ∧
      (s.bug.power ≠ .doze → Does .dozeWake s (· = { seqStep s with out := [] }))) ∧
    (s.dOn = true → ∀ n : Fin 16,
      Does (.tc10SleepAck n) s (fun t => t = { s with out := [], bug := { s.bug with tc10Wait := maskClr s.bug.tc10Wait n } }) ∧
      ((s.port n).started = true → Does (.tc10SleepRequestReceive n) s (fun t =>
        t.bug = { s.bug with tc10Req := SMap.put s.bug.tc10Req n s.beat } ∧ t = { s with out := [], bug := t.bug, eng := t.eng } ∧
        ∀ e, e = 12 ∨ e = 13 → (t.engine e).bugle.length = (s.engine e).bugle.length + 1)) ∧
      ((s.port n).started = false → Does (.tc10SleepRequestReceive n) s (· = { s with out := [] })))) ∧
  (∀ (s : State), s.dOn = true →
    let stopped := { s.bug with seq := .stopped, txSilent := true, swErr := [] }
    (s.bug.seq = .prepare → s.bug.aborting = false →
      (s.bug.prepAt ≠ s.beat → s.holds = 0 → Does .sleepStop s (fun t => t.bug = stopped ∧ t = { s with out := [], bug := stopped, eng := t.eng })) ∧
      (s.holds ≠ 0 → Does .sleepStop s (· = { s with out := [] })) ∧
      (let due := s.rfld .BUG_SLEEP_CFG 4 12 * 125 ≤ (s.beat - s.bug.prepAt).toNat
       (due → Does .prepTimeout s (fun t => t.bug = stopped ∧ t.rbit .BUG_EVENT 3 = true)) ∧
       (¬ due → Does .prepTimeout s (· = { s with out := [] })))) ∧
    (s.bug.seq ≠ .prepare → Does .sleepStop s (· = { s with out := [] }) ∧ Does .prepTimeout s (· = { s with out := [] })) ∧
    (s.bug.seq ≠ .stopped → Does .sleepCommit s (· = { s with out := [] })) ∧
    (s.bug.seq = .stopped → s.bug.aborting = false →
      (s.reg .BUG_WAKE_LATCH = 0 → Does .sleepCommit s (fun t =>
        t.bug = { s.bug with
          seq := .committed, woken := false, faultN := false,
          timerOn := s.rbit .BUG_WAKE_CFG 24 && s.rfld .BUG_WAKE_TIMER 0 24 != 0 } ∧ t = { s with out := [], bug := t.bug })) ∧
      (s.reg .BUG_WAKE_LATCH ≠ 0 → Does .sleepCommit s (fun t =>
        t.bug = { s.bug with aborting := true } ∧ t.rfld .BUG_ABORT 0 4 = s.rfld .BUG_WAKE_LATCH 0 4))) ∧
    (s.bug.seq = .committed → Does .dDieDown s (fun t =>
      t.dOn = false ∧ t.bug.power = (if s.bug.target = 2 then .listen else .sleep) ∧ t.bug.seq = .run ∧
      t.bug.woken = s.bug.woken ∧ t.twin = State.reset.twin ∧ t.held = [] ∧ t.copies = [] ∧ t.eng = [])) ∧
    (s.bug.seq ≠ .committed → Does .dDieDown s (· = { s with out := [] })))

/-- R437 to R442, R448, R452: in SLEEP and LISTEN every armed source latches its wake: the first with cause and index, each
with its bit; a source that is not armed latches nothing; the latched wake starts the D-die, once RESET_N is high; a served
clear empties the latch. Completes: wakePin, canWup, canFrame, canErr, linWake, tc10Wake, wakeTimer, vbatReturn, wakeSequence,
bugWakeClr. -/
def Obligations.Wakes : Prop :=
  ∀ (s : State),
    let latches := fun (cause index : Nat) (t : State) =>
      t.bug.woken = true ∧ t.rbit .BUG_WAKE_LATCH (16 + cause) = true ∧ t.dOn = s.dOn ∧ t.bug.power = s.bug.power ∧
      (s.rfld .BUG_WAKE_LATCH 0 4 = 0 → t.rfld .BUG_WAKE_LATCH 0 4 = cause ∧ t.rfld .BUG_WAKE_LATCH 4 5 = index) ∧
      (s.rfld .BUG_WAKE_LATCH 0 4 ≠ 0 → t.rfld .BUG_WAKE_LATCH 0 10 = s.rfld .BUG_WAKE_LATCH 0 10)
    let nothing := fun (t : State) => t = { s with out := [] }
    (s.bug.seq = .run → s.bug.power = .sleep →
      (∀ (i : Fin 4) (rising : Bool),
        let hit := s.rbit .BUG_WAKE_CFG i && s.rbit .BUG_WAKE_PIN (8 * i + if rising then 0 else 1)
        Does (.wakePin i rising) s (fun t =>
          t.bug.pins = (if rising then maskSet s.bug.pins i else maskClr s.bug.pins i) ∧
          (hit = true → latches 1 i t) ∧ (hit = false → t.regs = s.regs ∧ t.bug.woken = s.bug.woken))) ∧
      (∀ c : Fin 8, s.rbit .BUG_WAKE_CFG (12 + c) = true ∨ s.rbit .BUG_WAKE_CFG (4 + c) = true →
        Does (.canWup c) s (latches 2 c)) ∧
      (∀ c : Fin 8, s.rbit .BUG_WAKE_CFG (12 + c) = false → s.rbit .BUG_WAKE_CFG (4 + c) = false → Does (.canWup c) s nothing) ∧
      (∀ l : Fin 4, s.rbit .BUG_WAKE_CFG (20 + l) = true → Does (.linWake l) s (latches 5 l)) ∧
      (∀ l : Fin 4, s.rbit .BUG_WAKE_CFG (20 + l) = false → Does (.linWake l) s nothing) ∧
      (s.bug.timerOn = true → Does .wakeTimer s (fun t => latches 7 0 t ∧ t.bug.timerOn = false))) ∧
    (s.bug.seq = .run → s.bug.power = .listen →
      (∀ (c : Fin 8) (f : BusFrame) k, s.swArmed c = true → f.kind = 0 → f.fdf = false →
        (List.range 8).find? (fun k => s.swMatch k c f) = some k → Does (.canFrame c f) s (latches 3 k)) ∧
      (∀ (c : Fin 8), s.swArmed c = true → s.rfld .BUG_SW_CFG 8 8 < SMap.get 0 s.bug.swErr c + 1 → Does (.canErr c) s (latches 4 c)) ∧
      (∀ n : Fin 16, s.hasPort n = true → s.rbit .BUG_TC10_CFG n = true → Does (.tc10Wake n) s (latches 6 n)) ∧
      (∀ n : Fin 16, s.rbit .BUG_TC10_CFG n = false → Does (.tc10Wake n) s nothing)) ∧
    (s.bug.timerOn = false → Does .wakeTimer s nothing) ∧
    (s.bug.power = .brownout → s.bug.seq = .run → Does .vbatReturn s (latches 8 0)) ∧
    (s.bug.power ≠ .brownout → Does .vbatReturn s nothing) ∧
    (s.dOn = false → s.bug.woken = true → s.clk.resetN = true → Does .wakeSequence s (fun t =>
      t.dOn = true ∧ t.bug.power = .active ∧ t.clk.phase = 1 ∧ t.bug.faultN = true ∧
      t.reg .CLK_RST_CAUSE = (if s.bug.power = .brownout ∧ s.rfld .BUG_WAKE_LATCH 0 4 = 8 then 5 else 3))) ∧
    (s.bug.woken = false ∨ s.clk.resetN = false → Does .wakeSequence s nothing) ∧
    (Served s .BUG_WAKE_CLR 0 → Does .bugWakeClr s (fun t => t.reg .BUG_WAKE_LATCH = 0 ∧ t = { s with out := [], regs := t.regs } ∧
      ∀ r i j, r.addr i j ≠ Reg.BUG_WAKE_LATCH.addr 0 0 → r.addr i j ≠ Reg.HIF_BAR0_SEQ.addr 0 0 → t.reg r i j = s.reg r i j))

/-- R431 to R434, R436, R455, R530: a brownout and a loss of power take the D-die down, the loss with the keep domain; a rail
out of its window enters the safe state, and one below its reset level restarts the D-die; VBAT's limits are flagged and
reported to the Bugle engines; an INH output in current limit switches off; a transmitter in thermal shutdown is silent until
it recovers. Completes: brownout, powerLoss, railFail, rail, vbatHigh, vbatCrossed, inhFault, thermalShutdown, thermalRecovery.
-/
def Obligations.Supplies : Prop :=
  ∀ (s : State),
    let told := fun (t : State) => ∀ e, e = 12 ∨ e = 13 → (t.engine e).bugle.length = (s.engine e).bugle.length + 1
    (s.bug.power ≠ .off → s.bug.power ≠ .brownout → Does .brownout s (fun t =>
      t.dOn = false ∧ t.bug.power = .brownout ∧ t.bug.faultN = true ∧ t.bug.vbatOk = false ∧ t.bug.woken = false ∧
      t.twin = State.reset.twin)) ∧
    (s.bug.power = .off ∨ s.bug.power = .brownout → Does .brownout s (· = { s with out := [] })) ∧
    Does .powerLoss s (fun t => t.dOn = false ∧ t.bug.power = .off ∧ t.regs = [] ∧ t.bug.inh = 0 ∧ t.twin = State.reset.twin) ∧
    (∀ r : Fin 5, s.dOn = true →
      (s.twin.safe = false → s.clk.phase = 7 → Does (.railFail r) s (InSafe · 3)) ∧
      (s.twin.safe = true → Does (.railFail r) s (fun t => t.rbit .BUG_RAIL_STATUS r = false ∧ t.rbit .BUG_EVENT 6 = true)) ∧
      Does (.rail r) s (fun t =>
        t.dOn = true ∧ t.clk.phase = 1 ∧ t.reg .CLK_RST_CAUSE = 4 ∧ t.bug.faultN = true ∧ t.twin = State.reset.twin)) ∧
    (s.dOn = true → Does .vbatHigh s (fun t => t.rbit .BUG_EVENT 5 = true ∧ told t ∧ t.bug = s.bug) ∧
      ∀ ok, Does (.vbatCrossed ok) s (fun t => t.bug = { s.bug with vbatOk := ok } ∧ told t ∧ t.regs = s.regs)) ∧
    (∀ i : Fin 2,
      let trips := maskBit s.bug.inh i && !maskBit s.bug.inhFault i
      let off := fun (t : State) => t.bug = { s.bug with inhFault := maskSet s.bug.inhFault i } ∧ (s.dOn = true → t.rbit .BUG_EVENT 7 = true)
      (trips = true → Does (.inhFault i) s off ∧ Does (.thermalShutdown (.inh i)) s off) ∧
      (trips = false → Does (.inhFault i) s (· = { s with out := [] }) ∧ Does (.thermalShutdown (.inh i)) s (· = { s with out := [] })) ∧
      Does (.thermalRecovery (.inh i)) s (· = { s with out := [] })) ∧
    (∀ c : Fin 8, Does (.thermalShutdown (.can c)) s (fun t => t.can c = { s.can c with hot := true } ∧ ∀ k, k ≠ c.val → t.can k = s.can k) ∧
      Does (.thermalRecovery (.can c)) s (fun t => t.can c = { s.can c with hot := false } ∧ ∀ k, k ≠ c.val → t.can k = s.can k)) ∧
    (∀ l : Fin 4, Does (.thermalShutdown (.lin l)) s (fun t => t.linc l = { s.linc l with hot := true } ∧ ∀ k, k ≠ l.val → t.linc k = s.linc k) ∧
      Does (.thermalRecovery (.lin l)) s (fun t => t.linc l = { s.linc l with hot := false } ∧ ∀ k, k ≠ l.val → t.linc k = s.linc k))

/-! ### Images, configuration and peers (chapter 16) -/

/-- R466, R467, R468, R469: the host's staging through a command ring. OPEN takes a free lock or the owner's own, advances GEN
and sets STATE to OPEN, and is BUSY for another owner, during an ACTIVATE or while the staged image runs. WRITE of the owner
puts its slabs at the offset. COMMIT answers the verification's code and releases the lock; ABORT releases it and leaves STATE
EMPTY; without the lock these end with NOT_OWNER. 30 s without an operation of the owner release the lock. R470: a tester
stages through Shepherd while it serves: each UDS request is one staging operation of that tester, answered with 0 where it
succeeds, with 0x22 for BUSY, 0x24 for NOT_OWNER and 0x72 for a failed verification; while Shepherd does not serve, a request
has no answer. The block counter and the answers of 0 are the model's reading (log entries 60 and 61). Completes: updOpen,
updWrite, updCommit, updAbort, stagingLockExpiry, requestDownload, transferData, requestTransferExit, routineControlActivate,
routineControlAbort. -/
def Obligations.Staging : Prop :=
  (∀ (s : State) (r : Fin 2) (idx : BitVec 16) (desc data : List Word) (slabs : List SlabRead), s.dOn = true →
    let u := s.upd
    let mine := u.owner = 1 ∧ u.tester = 0
    let strange := fun (t : State) => CmdEnds t r idx 2 ∧ t.upd = u
    (CmdStarts s r idx (cmdDesc desc 1 1) →
      (u.owner = 0 ∨ mine → u.act = 0 → u.running ≠ 2 → Does (.updOpen r idx desc data) s (fun t =>
        CmdEnds t r idx 0 ∧ t.upd = { u with owner := 1, tester := 0, gen := (u.gen + 1) % 256, stageState := 1, touched := [],
                                             blocks := 0, lastOp := s.time.cnt } ∧
        t.rbit .KEEP_BOOT 1 = false ∧ CmdShows t r idx (fun d => d.res7 = BitVec.ofNat 32 ((u.gen + 1) % 256)))) ∧
      (u.owner ≠ 0 ∧ ¬ mine ∨ u.act ≠ 0 ∨ u.running = 2 → Does (.updOpen r idx desc data) s (fun t => CmdEnds t r idx 1 ∧ t.upd = u))) ∧
    (CmdStarts s r idx (cmdDesc desc 1 2) →
      let off := (wd desc 1).toNat * 4096
      let n := wfld desc 2 16 6
      (mine → 1 ≤ n → n ≤ 16 → off + n * 4096 ≤ 16777216 → ∀ l, s.argSlabs desc slabs = some l →
        Does (.updWrite r idx desc slabs) s (fun t =>
          CmdEnds t r idx 0 ∧ t.upd.owner = 1 ∧ t.upd.stageState = u.stageState ∧ t.upd.gen = u.gen ∧ t.upd.main = u.main ∧
          t.upd.prior = u.prior ∧ t.upd.lastOp = s.time.cnt ∧
          (∀ i x k, l[i]? = some x → k < 4096 → t.upd.stageArea (off + 4096 * i + k) = byteAt x.data k) ∧
          ∀ a, a / 65536 < off / 65536 ∨ (off + n * 4096 - 1) / 65536 < a / 65536 → t.upd.stageArea a = u.stageArea a)) ∧
      (¬ mine → Does (.updWrite r idx desc slabs) s strange)) ∧
    (CmdStarts s r idx (cmdDesc desc 1 3) →
      (mine → Does (.updCommit r idx desc data) s (fun t =>
        let c := s.verify u.stageArea
        CmdEnds t r idx c ∧ t.upd = { u with owner := 0, stageState := if c = 0 then 2 else 3 } ∧
        (c = 0 → t.rbit .KEEP_BOOT 1 = true ∧ t.reg .KEEP_STAGE_TAG = areaWord u.stageArea 0x20) ∧ (c ≠ 0 → t.regs = s.regs))) ∧
      (¬ mine → Does (.updCommit r idx desc data) s strange)) ∧
    (CmdStarts s r idx (cmdDesc desc 1 4) →
      (mine → Does (.updAbort r idx desc data) s (fun t => CmdEnds t r idx 0 ∧ t.upd = { u with owner := 0, stageState := 0 })) ∧
      (¬ mine → Does (.updAbort r idx desc data) s strange)) ∧
    (let due := u.owner ≠ 0 ∧ 9375000000 ≤ (s.time.cnt - u.lastOp).toNat
     (due → Does .stagingLockExpiry s (fun t =>
       t.upd = { u with owner := 0, stageState := 0 } ∧ t.rbit .UPD_EVENT 2 = true)) ∧
     (¬ due → Does .stagingLockExpiry s (· = { s with out := [] })))) ∧
  (∀ (s : State) (tester : BitVec 16), s.dOn = true →
    let u := s.upd
    let mine := u.owner = 2 ∧ u.tester = tester.toNat
    let answers := fun (t : State) (c : Nat) => t.out = [.uds tester.toNat c]
    (s.shepUp = true →
      (∀ size : BitVec 32, size.toNat ≤ 16777216 →
        (u.owner = 0 ∨ mine → u.act = 0 → u.running ≠ 2 → Does (.requestDownload tester 0 size) s (fun t =>
          answers t 0 ∧ t.rbit .KEEP_BOOT 1 = false ∧
          t.upd = { u with owner := 2, tester := tester.toNat, gen := (u.gen + 1) % 256, stageState := 1, touched := [], blocks := 0,
                           testerGen := (u.gen + 1) % 256, lastOp := s.time.cnt })) ∧
        (u.owner ≠ 0 ∧ ¬ mine ∨ u.act ≠ 0 ∨ u.running = 2 → Does (.requestDownload tester 0 size) s (fun t => answers t 0x22 ∧ t.upd = u))) ∧
      (∀ (block : Byte) (data : List Byte),
        (mine → block.toNat = (u.blocks + 1) % 256 → data ≠ [] → data.length ≤ 4096 → u.blocks < 4096 →
          Does (.transferData tester block data) s (fun t =>
            answers t 0 ∧ t.upd.blocks = u.blocks + 1 ∧ t.upd.owner = 2 ∧ t.upd.lastOp = s.time.cnt ∧
            ∀ k, k < data.length → t.upd.stageArea (u.blocks * 4096 + k) = byteAt data k)) ∧
        (¬ mine → Does (.transferData tester block data) s (fun t => answers t 0x24 ∧ t.upd = u))) ∧
      (mine → Does (.requestTransferExit tester) s (fun t =>
        let c := s.verify u.stageArea
        t.upd = { u with owner := 0, stageState := if c = 0 then 2 else 3 } ∧ answers t (if c = 0 then 0 else 0x72))) ∧
      (¬ mine → Does (.requestTransferExit tester) s (fun t => answers t 0x24 ∧ t.upd = u)) ∧
      (mine → Does (.routineControlAbort tester) s (fun t => answers t 0 ∧ t.upd = { u with owner := 0, stageState := 0 })) ∧
      (¬ mine → Does (.routineControlAbort tester) s (fun t => answers t 0x24 ∧ t.upd = u)) ∧
      (s.actJudge u.testerGen = 0 → Does (.routineControlActivate tester) s (fun t =>
        answers t 0 ∧ t.upd = { u with trial := false, copyBlock := 0, act := 2 })) ∧
      (s.actJudge u.testerGen = 1 → Does (.routineControlActivate tester) s (fun t => answers t 0x22 ∧ t.upd = u))) ∧
    (s.shepUp = false → ∀ c addr size block data,
      c = Instr.requestDownload tester addr size ∨ c = .transferData tester block data ∨ c = .requestTransferExit tester ∨
        c = .routineControlActivate tester ∨ c = .routineControlAbort tester → Does c s (· = { s with out := [] })))

/-- R471, R473, R474: ACTIVATE answers the first check that fails, in the rule's order, and changes nothing then; accepted, it
completes with OK, marks the staged image VERIFIED in the keep domain and copies; a trial clears that mark and reloads the
standby from staging at once, as an ACTIVATE does after a copy whose image verifies. A failed copy or image ends it with its
result and BOOT_SLOT PRIOR. With the new microcode active and reloaded, Shepherd's restart ends it with OK. Completes:
activate, activateTrial, activateCopyDone, activateShepherdRestart. -/
def Obligations.Activation : Prop :=
  ∀ (s : State) (r : Fin 2) (idx : BitVec 16) (desc data : List Word), s.dOn = true →
    let u := s.upd
    let gen := wfld desc 1 0 8
    let staged := u.stageState = 2
    let safeSvn := s.reg .KEEP_CTR 0 ≤ imgSvn u.stageArea
    let ready := s.twin.safe = false ∧ s.anyEligible.isSome = true
    let refused := fun (c : Instr) (code : Nat) => Does c s (fun t => CmdEnds t r idx code ∧ t.upd = u ∧ t.regs = s.regs)
    let fails := fun (t : State) (code : Nat) =>
      t.upd.act = 0 ∧ t.rfld .UPD_ACT_STATUS 16 8 = code ∧ t.rbit .UPD_EVENT 1 = true
    let reloads := fun (t : State) (b : Bool) =>
      t.upd.act = 4 ∧ (t.plane (!b)).mode = .selftest ∧ (t.plane b).mode = (s.plane b).mode
    (CmdStarts s r idx (cmdDesc desc 1 5) →
      (∀ c, c = Instr.activate r idx desc data ∨ c = .activateTrial r idx desc data →
        (¬ staged → refused c 8) ∧
        (staged → gen ≠ u.gen → refused c 7) ∧
        (staged → gen = u.gen → ¬ safeSvn → refused c 5) ∧
        (staged → gen = u.gen → safeSvn → u.act ≠ 0 → refused c 1) ∧
        (staged → gen = u.gen → safeSvn → u.act = 0 → ¬ ready → refused c 9)) ∧
      (staged → gen = u.gen → safeSvn → u.act = 0 → ready →
        Does (.activate r idx desc data) s (fun t =>
          CmdEnds t r idx 0 ∧ t.upd = { u with trial := false, copyBlock := 0, act := 2 } ∧ t.rbit .KEEP_BOOT 1 = true ∧
          t.rfld .KEEP_BOOT 2 2 = 1 ∧ t.rfld .UPD_ACT_STATUS 16 8 = 0) ∧
        (imgStateFmt u.stageArea = u.runState → ∀ b, s.actId = some b → (s.plane (!b)).mode = .standby →
          Does (.activateTrial r idx desc data) s (fun t =>
            CmdEnds t r idx 0 ∧ reloads t b ∧ t.upd.trial = true ∧ t.rbit .KEEP_BOOT 1 = false ∧
            t.rbit .KEEP_BOOT 0 = s.rbit .KEEP_BOOT 0 ∧ t.upd.main = u.main)) ∧
        (imgStateFmt u.stageArea ≠ u.runState → Does (.activateTrial r idx desc data) s (fun t => CmdEnds t r idx 0 ∧ fails t 10)))) ∧
    (u.act = 2 →
      Does (.activateCopyDone false) s (fun t => fails t 17 ∧ t.rbit .KEEP_BOOT 0 = true) ∧
      Does (.activateCopyDone true) s (fun t =>
        (∀ a, a < 16777216 → t.upd.mainArea a = u.stageArea a ∧ t.upd.priorArea a = u.mainArea a) ∧ t.rfld .KEEP_BOOT 2 2 = 0 ∧
        (s.verify t.upd.mainArea ≠ 0 → fails t (s.verify t.upd.mainArea) ∧ t.rbit .KEEP_BOOT 0 = true) ∧
        (s.verify t.upd.mainArea = 0 → imgStateFmt t.upd.mainArea ≠ u.runState → fails t 10) ∧
        (s.verify t.upd.mainArea = 0 → imgStateFmt t.upd.mainArea = u.runState → s.twin.safe = false →
          ∀ b, s.actId = some b → (s.plane (!b)).mode ≠ .failed → reloads t b))) ∧
    (u.act ≠ 2 → ∀ ok, Does (.activateCopyDone ok) s (· = { s with out := [] })) ∧
    (u.act = 8 → Does .activateShepherdRestart s (fun t =>
      t.upd.act = 0 ∧ t.rfld .UPD_ACT_STATUS 16 8 = 0 ∧ t.rbit .UPD_EVENT 0 = true ∧ t.upd.main = u.main ∧ t.upd.stage = u.stage ∧
      let f := if u.trial then u.stageArea else u.mainArea
      t.reg .UPD_FW_VERSION = imgVersion f ∧ t.reg .UPD_FW_SVN = imgSvn f ∧
      (u.trial = false → t.upd.running = 0 ∧ t.rbit .KEEP_BOOT 0 = false ∧ t.rbit .KEEP_BOOT 1 = false ∧
        t.reg .KEEP_CTR 0 = (if s.reg .KEEP_CTR 0 < imgSvn f then imgSvn f else s.reg .KEEP_CTR 0)) ∧
      (u.trial = true → t.upd.running = 2 ∧ t.rbit .KEEP_BOOT 0 = s.rbit .KEEP_BOOT 0 ∧ t.reg .KEEP_CTR 0 = s.reg .KEEP_CTR 0))) ∧
    (u.act ≠ 8 → Does .activateShepherdRestart s (· = { s with out := [] }))

/-- R464, R492: INC_CTR adds 1 to one of the counters 16 to 29 and to no other register of the keep domain; another number, or
a counter at its largest value, completes with RANGE and nothing changes. Completes: incCtr. -/
def Obligations.CounterIncrement : Prop :=
  ∀ (s : State) (r : Fin 2) (idx : BitVec 16) (desc data : List Word), s.dOn = true → CmdStarts s r idx (cmdDesc desc 1 6) →
    let n := (wd desc 1).toNat
    (16 ≤ n → n ≤ 29 → s.reg .KEEP_CTR n ≠ 0xFFFFFFFF → Does (.incCtr r idx desc data) s (fun t =>
      CmdEnds t r idx 0 ∧ t.reg .KEEP_CTR n = s.reg .KEEP_CTR n + 1 ∧
      ∀ q i j, q.addr i j ≠ Reg.KEEP_CTR.addr n 0 → t.reg q i j = s.reg q i j)) ∧
    (n < 16 ∨ 29 < n ∨ s.reg .KEEP_CTR n = 0xFFFFFFFF → Does (.incCtr r idx desc data) s (fun t =>
      CmdEnds t r idx 19 ∧ t.regs = s.regs ∧ t.upd = s.upd))

/-- R480, R481: a COMMIT is taken where no request is open, and else refused; at the end of its checks it is PENDING, or the
first check that fails ends it, is its result and is flagged, an epoch not above the ceiling being the first; CANCEL withdraws
it, and is NOT_PENDING where there is none; DISCARD drops the prepared registers, and is refused while a request is open.
Completes: cfgCommit, commitCheckDone, cfgCancel, cfgDiscard. -/
def Obligations.CommitRequests : Prop :=
  ∀ (s : State) (r : Fin 2) (idx : BitVec 16) (desc data : List Word), s.dOn = true →
    let q : CfgReq := { src := some (r.val, idx.toNat), epoch := wd data 0, atBeat := bit (wd desc 0) 8,
                        beat := BitVec.ofNat 48 (wfld desc 1 16 16 * 2 ^ 32 + (wd desc 2).toNat), checked := false }
    let ends := fun (t : State) (code : Nat) =>
      t.upd.cfg = none ∧ t.rfld .UPD_CFG_STATUS 8 8 = code ∧ t.rbit .UPD_EVENT 7 = true ∧ t.prep = s.prep
    (CmdStarts s r idx (cmdDesc desc 2 1) →
      (s.upd.cfg = none → Does (.cfgCommit r idx desc data) s (fun t =>
        t.upd = { s.upd with cfg := some q } ∧ CmdRuns t r idx ∧ t.regs = s.regs ∧ t.prep = s.prep)) ∧
      (s.upd.cfg ≠ none → Does (.cfgCommit r idx desc data) s (fun t =>
        t.upd = s.upd ∧ CmdEnds t r idx 16 ∧ t.rbit .UPD_EVENT 7 = true ∧ t.prep = s.prep))) ∧
    (∀ p, s.upd.cfg = some p → p.checked = false →
      (p.epoch ≤ s.reg .KEEP_CFG_EPOCH_HI → Does .commitCheckDone s (ends · 14)) ∧
      (∀ f, s.quiet.cfgJudge p = some f → Does .commitCheckDone s (ends · f.code)) ∧
      (s.quiet.cfgJudge p = none → Does .commitCheckDone s (fun t =>
        t.upd.cfg = some { p with checked := true, src := none } ∧ t.rfld .UPD_CFG_STATUS 8 8 = 0 ∧ t.prep = s.prep ∧
        ∀ i : Fin 2, ∀ k : BitVec 16, p.src = some (i.val, k.toNat) → (∃ d ∈ (s.ring (64 + i.val)).fetched, d.idx = k.toNat) →
          CmdEnds t i k 0))) ∧
    (s.upd.cfg = none ∨ (∃ p, s.upd.cfg = some p ∧ p.checked = true) → Does .commitCheckDone s (· = { s with out := [] })) ∧
    (CmdStarts s r idx (cmdDesc desc 2 2) →
      (s.upd.cfg = none → Does (.cfgCancel r idx desc data) s (fun t => CmdEnds t r idx 20 ∧ t.upd = s.upd)) ∧
      (s.upd.cfg ≠ none → Does (.cfgCancel r idx desc data) s (fun t =>
        CmdEnds t r idx 0 ∧ t.upd = { s.upd with cfg := none } ∧ t.prep = s.prep ∧ t.regs = s.regs))) ∧
    (CmdStarts s r idx (cmdDesc desc 2 3) →
      (s.upd.cfg = none → Does (.cfgDiscard r idx desc data) s (fun t => CmdEnds t r idx 0 ∧ t.prep = [] ∧ t.regs = s.regs)) ∧
      (s.upd.cfg ≠ none → Does (.cfgDiscard r idx desc data) s (fun t =>
        CmdEnds t r idx 16 ∧ t.prep = s.prep ∧ t.twin = s.twin ∧ t.regs = s.regs)))

/-- R477, R479, R481, R492: SAVE writes a set of the epoch in force into the copy not in force, with SEQ one higher, so that it
is in force, and leaves the other copy; SETTINGS_PUT changes no register's active value, and changes nothing prepared where a
request is open or a record is bad; SETTINGS_GET writes the copy in force to its slabs and changes nothing else. Completes:
save, settingsPut, settingsGet. -/
def Obligations.SettingsCommands : Prop :=
  ∀ (s : State) (r : Fin 2) (idx : BitVec 16) (desc data : List Word) (slabs l : List SlabRead), s.dOn = true →
    let active := fun (t : State) => ∀ a, a ≠ Reg.UPD_EVENT.addr 0 0 → SMap.find? t.regs a = SMap.find? s.regs a
    (CmdStarts s r idx (cmdDesc desc 2 4) → Does (.save r idx desc data) s (fun t =>
      CmdEnds t r idx 0 ∧ t.regs = s.regs ∧ t.prep = s.prep ∧
      ∃ c x, t.upd.setForce = some (c, x) ∧ x.epoch = s.reg .UPD_CFG_EPOCH ∧ x.valid = true ∧
        (s.upd.setForce = none → x.seq = 1) ∧
        ∀ o, s.upd.setForce = some o → c = !o.1 ∧ x.seq = o.2.seq + 1 ∧ (if c then t.upd.setA else t.upd.setB) = o.2)) ∧
    (CmdStarts s r idx (cmdDesc desc 2 5) → s.argSlabs desc slabs = some l → l ≠ [] →
      let recs := putRecs ((l.flatMap (fun e => slice e.data 0 4096)).length / 12 + 1) (l.flatMap (fun e => slice e.data 0 4096))
      let bad := ∃ x ∈ recs, x.ok = false ∨ s.upd.runSet < x.fmt
      (s.upd.cfg ≠ none → Does (.settingsPut r idx desc slabs) s (fun t =>
        CmdEnds t r idx 16 ∧ t.rbit .UPD_EVENT 12 = true ∧ active t ∧ t.prep = s.prep ∧ t.twin = s.twin)) ∧
      (s.upd.cfg = none → bad → Does (.settingsPut r idx desc slabs) s (fun t =>
        CmdEnds t r idx 18 ∧ t.regs = s.regs ∧ t.prep = s.prep ∧ t.twin = s.twin)) ∧
      (s.upd.cfg = none → ¬ bad → Does (.settingsPut r idx desc slabs) s (fun t => CmdEnds t r idx 0 ∧ active t))) ∧
    (CmdStarts s r idx (cmdDesc desc 2 6) → s.argSlabs desc slabs = some l → l ≠ [] →
      Does (.settingsGet r idx desc slabs) s (fun t =>
        CmdEnds t r idx 0 ∧ t.upd = s.upd ∧ t.regs = s.regs ∧ t.prep = s.prep ∧
        ∀ o, s.upd.setForce = some o → ∀ i x, l[i]? = some x →
          Output.hostWrite (s.slabAddr x.slab) (slice o.2.bytes (4096 * i) 4096) ∈ t.out))

/-- R26, R485, R486: an LLDPDU for each port of UPD_FP_PORTS that is up, with the fingerprint TLV where it is enabled, enters
P23 directed to that port or waits for it (the form of the frame but for that TLV, and its way, are the model's: log entry 74).
A fingerprint TLV is taken into its source's entry, or the first free one, with its epoch and fingerprint; with 32 others in
use it is ignored and flagged; any other TLV is ignored. An expected peer silent for 4 s is flagged once; an entry whose
time-to-live has ended goes. Completes: lldpduSend, lldpTlvReceive, peerLost, peerTtlExpiry. -/
def Obligations.FingerprintPeers : Prop :=
  ∀ (s : State), s.dOn = true →
    (s.shepUp = true → Does .lldpduSend s (fun t =>
      let ports := (maskList (s.rfld .UPD_FP_PORTS 0 24) 22).filter (fun n => s.hasPort n && s.up n)
      ∃ ttl, (∀ n ∈ ports, let f := s.llFrame n 0x88CC false (s.lldpdu n ttl)
          f ∈ t.hif.answers ∨ ∃ h ∈ t.held, h.port = 23 ∧ h.bytes = f.bytes ∧ h.direct = some n) ∧
        t.regs = s.regs ∧ t.copies = s.copies ∧ t.upd = s.upd)) ∧
    (s.shepUp = false → Does .lldpduSend s (· = { s with out := [] })) ∧
    (∀ (n : Fin 22) (mac : BitVec 48) (tlv : List Byte) (ttl : BitVec 16),
      (s.shepUp = false ∨ s.tlvOk tlv = false → Does (.lldpTlvReceive n mac tlv ttl) s (· = { s with out := [] })) ∧
      (s.shepUp = true → s.tlvOk tlv = true →
        ((∀ j, j < 32 → s.peerMac j ≠ none ∧ s.peerMac j ≠ some mac.toNat) → Does (.lldpTlvReceive n mac tlv ttl) s (fun t =>
          t.rbit .UPD_EVENT 11 = true ∧ t.upd = s.upd)) ∧
        (∀ k, k < 32 → s.peerMac k = some mac.toNat ∧ (∀ j, j < k → s.peerMac j ≠ some mac.toNat) ∨
            s.peerMac k = none ∧ (∀ j, j < k → s.peerMac j ≠ none) ∧ (∀ j, j < 32 → s.peerMac j ≠ some mac.toNat) →
          Does (.lldpTlvReceive n mac tlv ttl) s (fun t =>
            t.peerMac k = some mac.toNat ∧ t.rfld .UPD_PEER_MAC_HI 16 5 k = n ∧ (t.reg .UPD_PEER_EPOCH k).toNat = beNat tlv 6 4 ∧
            t.reg64 .UPD_PEER_FP_LO .UPD_PEER_FP_HI k = beNat tlv 10 8 ∧
            (SMap.get {} t.upd.peer k).ttl = ttl.toNat ∧ (SMap.get {} t.upd.peer k).seen = s.time.cnt ∧
            ∀ j, j < 32 → j ≠ k → t.peerMac j = s.peerMac j)))) ∧
    (∀ j : Fin 32,
      let e := SMap.get {} s.upd.exp j
      let quiet4 := (s.expMac j).isSome = true ∧ e.lost = false ∧ 1250000000 ≤ (s.time.cnt - e.seen).toNat
      (quiet4 → Does (.peerLost j) s (fun t =>
        t.rbit .UPD_EVENT 10 = true ∧ t.upd = { s.upd with exp := SMap.put s.upd.exp j { e with lost := true } })) ∧
      (¬ quiet4 → Does (.peerLost j) s (· = { s with out := [] })) ∧
      let p := SMap.get {} s.upd.peer j
      let ended := (s.peerMac j).isSome = true ∧ p.ttl * 312500000 ≤ (s.time.cnt - p.seen).toNat
      (ended → Does (.peerTtlExpiry j) s (fun t => t.peerMac j = none ∧ ∀ i, i < 32 → i ≠ j.val → t.peerMac i = s.peerMac i)) ∧
      (¬ ended → Does (.peerTtlExpiry j) s (· = { s with out := [] })))
end

