-- ==== Sys2Proof/Laws/Bits.lean ====
section
/-! SUPPORT. Bit fields: what a field and a bit read after a write to a field. -/

namespace Sys2Proof.Machine

theorem testBit_fld (w : Word) (lo n k : Nat) : (fld w lo n).testBit k = (decide (k < n) && w.getLsbD (lo + k)) := by
  simp [fld, Nat.testBit_mod_two_pow, Nat.testBit_shiftRight, BitVec.getLsbD]

/-- A bit after a write to a field. -/
theorem getLsbD_setFld (w : Word) (lo n v k : Nat) (hk : k < 32) :
    (setFld w lo n v).getLsbD k = if lo ≤ k ∧ k < lo + n then v.testBit (k - lo) else w.getLsbD k := by
  have hm : (BitVec.ofNat 32 ((2 ^ n - 1) <<< lo)).getLsbD k = decide (lo ≤ k ∧ k < lo + n) := by
    rw [BitVec.getLsbD_ofNat]
    simp only [hk, decide_true, Bool.true_and, Nat.testBit_shiftLeft, Nat.testBit_two_pow_sub_one]
    by_cases h : lo ≤ k
    · simp [h]
      omega
    · simp [h]
  have hv : (BitVec.ofNat 32 ((v % 2 ^ n) <<< lo)).getLsbD k = (decide (lo ≤ k ∧ k < lo + n) && v.testBit (k - lo)) := by
    rw [BitVec.getLsbD_ofNat]
    simp only [hk, decide_true, Bool.true_and, Nat.testBit_shiftLeft, Nat.testBit_mod_two_pow]
    by_cases h : lo ≤ k
    · by_cases h2 : k < lo + n
      · have : k - lo < n := by omega
        simp [h, h2, this]
      · have : ¬ k - lo < n := by omega
        simp [h2, this]
    · simp [h]
  simp only [setFld, BitVec.getLsbD_or, BitVec.getLsbD_and, BitVec.getLsbD_not, hm, hv, hk]
  by_cases hc : lo ≤ k ∧ k < lo + n <;> simp [hc]

/-- A bit after a write to a bit. -/
theorem bit_setBit (w : Word) (i k : Nat) (b : Bool) (hk : k < 32) : bit (setBit w i b) k = if k = i then b else bit w k := by
  unfold bit setBit
  rw [getLsbD_setFld _ _ _ _ _ hk]
  by_cases h : k = i
  · subst h
    cases b <;> simp
  · have : ¬ (i ≤ k ∧ k < i + 1) := by omega
    rw [if_neg this, if_neg h]

@[simp] theorem bit_setBit_same (w : Word) (i : Nat) (b : Bool) (h : i < 32) : bit (setBit w i b) i = b := by
  rw [bit_setBit w i i b h, if_pos rfl]

/-- A field after a write to it. -/
theorem fld_setFld (w : Word) (lo n v : Nat) (h : lo + n ≤ 32) : fld (setFld w lo n v) lo n = v % 2 ^ n := by
  apply Nat.eq_of_testBit_eq
  intro k
  rw [testBit_fld, Nat.testBit_mod_two_pow]
  by_cases hk : k < n
  · rw [getLsbD_setFld _ _ _ _ _ (by omega)]
    have : lo ≤ lo + k ∧ lo + k < lo + n := by omega
    simp [hk]
  · simp [hk]

/-- A field after a write to a field that does not overlap it. -/
theorem fld_setFld_ne (w : Word) (lo n v lo' n' : Nat) (h' : lo' + n' ≤ 32) (h : lo' + n' ≤ lo ∨ lo + n ≤ lo') :
    fld (setFld w lo n v) lo' n' = fld w lo' n' := by
  apply Nat.eq_of_testBit_eq
  intro k
  rw [testBit_fld, testBit_fld]
  by_cases hk : k < n'
  · rw [getLsbD_setFld _ _ _ _ _ (by omega)]
    rw [if_neg (by omega)]
  · simp [hk]

/-- A bit after a write to a field that does not hold it. -/
theorem bit_setFld_ne (w : Word) (lo n v k : Nat) (hk : k < 32) (h : k < lo ∨ lo + n ≤ k) : bit (setFld w lo n v) k = bit w k := by
  unfold bit
  rw [getLsbD_setFld _ _ _ _ _ hk]
  rw [if_neg (by omega)]

/-- A field after a write to a bit outside it. -/
theorem fld_setBit_ne (w : Word) (i : Nat) (b : Bool) (lo n : Nat) (hn : lo + n ≤ 32) (h : i < lo ∨ lo + n ≤ i) :
    fld (setBit w i b) lo n = fld w lo n := fld_setFld_ne w i 1 _ lo n hn (by omega)

end Sys2Proof.Machine
end

