-- ==== Sys2Proof/Laws/Regs.lean ====
section
/-! SUPPORT. Registers that cannot share an address: every premise is closed, so decide proves it. -/

namespace Sys2Proof.Machine

/-- All replicas of `r` up to (m, n) lie below `q`. -/
theorem Reg.addr_ne_below {r q : Reg} (m n : Nat) (h : r.row.base + r.row.s1 * m + r.row.s2 * n < q.row.base) {i j : Nat}
    (hi : i ≤ m) (hj : j ≤ n) (k l : Nat) : r.addr i j ≠ q.addr k l := by
  unfold Reg.addr
  have h1 : r.row.s1 * i ≤ r.row.s1 * m := Nat.mul_le_mul_left _ hi
  have h2 : r.row.s2 * j ≤ r.row.s2 * n := Nat.mul_le_mul_left _ hj
  omega

/-- All replicas of `r` up to (m, n) lie below `q`, seen from `q`. -/
theorem Reg.addr_ne_above {r q : Reg} (m n : Nat) (h : r.row.base + r.row.s1 * m + r.row.s2 * n < q.row.base) {i j : Nat}
    (hi : i ≤ m) (hj : j ≤ n) (k l : Nat) : q.addr k l ≠ r.addr i j := (Reg.addr_ne_below m n h hi hj k l).symm

/-- Two registers of one table at the same replica. -/
theorem Reg.addr_ne_same {r q : Reg} (h : r.row.base ≠ q.row.base ∧ r.row.s1 = q.row.s1 ∧ r.row.s2 = q.row.s2) (i j : Nat) :
    r.addr i j ≠ q.addr i j := by
  unfold Reg.addr
  rw [h.2.1, h.2.2]
  omega

/-- Two registers of one table, at any replicas: their bases differ by less than the stride. -/
theorem Reg.addr_ne_stride {r q : Reg} (h : r.row.s1 = q.row.s1 ∧ r.row.s2 = 0 ∧ q.row.s2 = 0 ∧
    r.row.base % r.row.s1 ≠ q.row.base % q.row.s1) (i j k l : Nat) : r.addr i j ≠ q.addr k l := by
  unfold Reg.addr
  obtain ⟨h1, h2, h3, h4⟩ := h
  rw [h2, h3, h1]
  rw [h1] at h4
  intro he
  apply h4
  have := congrArg (· % q.row.s1) he
  simpa [Nat.add_mul_mod_self_left] using this

end Sys2Proof.Machine
end

