-- ==== Sys2Proof/Laws/SMap.lean ====
section
/-! SUPPORT. The laws of the sparse maps: reading what was written, leaving every other key alone, and keeping the canonical
form. The first two hold of every list of pairs, so no statement about the machine needs a well-formed map as a premise. -/

namespace Sys2Proof

variable {α : Type}

/-! ### Looking up -/

@[simp] theorem SMap.find?_nil (k : Nat) : SMap.find? ([] : SMap α) k = none := rfl

@[simp] theorem SMap.get_nil (d : α) (k : Nat) : SMap.get d [] k = d := rfl

theorem SMap.find?_put_same (m : SMap α) (k : Nat) (v : α) : SMap.find? (SMap.put m k v) k = some v := by
  induction m with
  | nil => simp [SMap.put, SMap.find?]
  | cons p t ih =>
    obtain ⟨k', v'⟩ := p
    simp only [SMap.put]
    split
    · simp [SMap.find?]
    · split
      · simp [SMap.find?]
      · simp_all [SMap.find?]

theorem SMap.find?_put_ne (m : SMap α) {k j : Nat} (v : α) (h : j ≠ k) : SMap.find? (SMap.put m k v) j = SMap.find? m j := by
  induction m with
  | nil => simp [SMap.put, SMap.find?, h]
  | cons p t ih =>
    obtain ⟨k', v'⟩ := p
    simp only [SMap.put]
    split
    · subst_vars
      simp [SMap.find?, h]
    · split
      · by_cases hj : j < k
        · have h1 : j ≠ k' := by omega
          have h2 : j < k' := by omega
          simp [SMap.find?, h, hj, h1, h2]
        · simp [SMap.find?, h, hj]
      · simp only [SMap.find?, ih]

theorem SMap.find?_dropWhile_lt (t : SMap α) {k j : Nat} (h : k < j) :
    SMap.find? (t.dropWhile (fun e => decide (e.1 ≤ k))) j = SMap.find? t j := by
  induction t with
  | nil => rfl
  | cons p t ih =>
    by_cases hp : p.1 ≤ k
    · rw [List.dropWhile_cons_of_pos (by simpa using hp), ih]
      obtain ⟨k', v'⟩ := p
      have h1 : j ≠ k' := by simp at hp; omega
      have h2 : ¬ j < k' := by simp at hp; omega
      simp [SMap.find?, h1, h2]
    · rw [List.dropWhile_cons_of_neg (by simpa using hp)]

theorem SMap.find?_dropWhile_le (t : SMap α) {k j : Nat} (h : j ≤ k) :
    SMap.find? (t.dropWhile (fun e => decide (e.1 ≤ k))) j = none := by
  induction t with
  | nil => rfl
  | cons p t ih =>
    by_cases hp : p.1 ≤ k
    · rw [List.dropWhile_cons_of_pos (by simpa using hp), ih]
    · rw [List.dropWhile_cons_of_neg (by simpa using hp)]
      obtain ⟨k', v'⟩ := p
      have h1 : j ≠ k' := by simp at hp; omega
      have h2 : j < k' := by simp at hp; omega
      simp [SMap.find?, h1, h2]

theorem SMap.find?_erase_same (m : SMap α) (k : Nat) : SMap.find? (SMap.erase m k) k = none := by
  induction m with
  | nil => rfl
  | cons p t ih =>
    obtain ⟨k', v'⟩ := p
    simp only [SMap.erase]
    split
    · exact SMap.find?_dropWhile_le t (Nat.le_refl k)
    · split
      · rename_i h1 h2
        simp [SMap.find?, h1, h2]
      · rename_i h1 h2
        simp [SMap.find?, h1, h2, ih]

theorem SMap.find?_erase_ne (m : SMap α) {k j : Nat} (h : j ≠ k) : SMap.find? (SMap.erase m k) j = SMap.find? m j := by
  induction m with
  | nil => rfl
  | cons p t ih =>
    obtain ⟨k', v'⟩ := p
    simp only [SMap.erase]
    split
    · rename_i e
      by_cases hj : j < k
      · rw [SMap.find?_dropWhile_le t (Nat.le_of_lt hj)]
        simp [SMap.find?, ← e, h, hj]
      · have hk : k < j := by omega
        rw [SMap.find?_dropWhile_lt t hk]
        simp [SMap.find?, ← e, h, hj]
    · split
      · rfl
      · simp only [SMap.find?, ih]

variable [DecidableEq α]

/-- A read of the key that was written gives the value written. -/
@[simp] theorem SMap.get_set_same (d : α) (m : SMap α) (k : Nat) (v : α) : SMap.get d (SMap.set d m k v) k = v := by
  unfold SMap.get SMap.set
  split
  · simp_all [SMap.find?_erase_same]
  · simp [SMap.find?_put_same]

/-- A write leaves every other key as it was. -/
theorem SMap.get_set_ne (d : α) (m : SMap α) {k j : Nat} (v : α) (h : j ≠ k) :
    SMap.get d (SMap.set d m k v) j = SMap.get d m j := by
  unfold SMap.get SMap.set
  split
  · rw [SMap.find?_erase_ne m h]
  · rw [SMap.find?_put_ne m v h]

theorem SMap.find?_set_ne (d : α) (m : SMap α) {k j : Nat} (v : α) (h : j ≠ k) :
    SMap.find? (SMap.set d m k v) j = SMap.find? m j := by
  unfold SMap.set
  split
  · exact SMap.find?_erase_ne m h
  · exact SMap.find?_put_ne m v h

/-- As get_set_ne, where the two keys read with defaults of their own. -/
theorem SMap.get_set_ne' (d d' : α) (m : SMap α) {k j : Nat} (v : α) (h : j ≠ k) :
    SMap.get d' (SMap.set d m k v) j = SMap.get d' m j := by
  simp only [SMap.get, SMap.find?_set_ne d m v h]

theorem SMap.get_set (d : α) (m : SMap α) (k j : Nat) (v : α) :
    SMap.get d (SMap.set d m k v) j = if j = k then v else SMap.get d m j := by
  split
  · subst_vars; exact SMap.get_set_same d m _ v
  · rename_i h; exact SMap.get_set_ne d m v h

@[simp] theorem SMap.get_upd_same (d : α) (m : SMap α) (k : Nat) (f : α → α) :
    SMap.get d (SMap.upd d m k f) k = f (SMap.get d m k) := SMap.get_set_same d m k _

theorem SMap.get_upd_ne (d : α) (m : SMap α) {k j : Nat} (f : α → α) (h : j ≠ k) :
    SMap.get d (SMap.upd d m k f) j = SMap.get d m j := SMap.get_set_ne d m _ h

/-! ### The canonical form -/

omit [DecidableEq α] in
theorem SMap.rising_put {lo : Option Nat} {m : SMap α} (h : SMap.rising lo m = true) (k : Nat) (v : α)
    (hk : ∀ l, lo = some l → l < k) : SMap.rising lo (SMap.put m k v) = true := by
  induction m generalizing lo with
  | nil => cases lo <;> simp_all [SMap.put, SMap.rising]
  | cons p t ih =>
    obtain ⟨k', v'⟩ := p
    simp only [SMap.put]
    simp only [SMap.rising, Bool.and_eq_true] at h
    split
    · subst_vars
      simpa [SMap.rising] using h
    · split
      · rename_i h1 h2
        cases lo <;> simp_all [SMap.rising]
      · rename_i h1 h2
        simp only [SMap.rising, Bool.and_eq_true]
        exact ⟨h.1, ih h.2 (by intro l hl; cases hl; omega)⟩

omit [DecidableEq α] in
theorem SMap.rising_weaken {a b : Option Nat} {m : SMap α} (h : SMap.rising a m = true)
    (hab : ∀ l, b = some l → ∃ l', a = some l' ∧ l ≤ l') : SMap.rising b m = true := by
  cases m with
  | nil => rfl
  | cons p t =>
    obtain ⟨k', v'⟩ := p
    simp only [SMap.rising, Bool.and_eq_true] at h ⊢
    refine ⟨?_, h.2⟩
    cases b with
    | none => rfl
    | some l =>
      obtain ⟨l', rfl, hl⟩ := hab l rfl
      have := h.1
      simp only [decide_eq_true_eq] at this ⊢
      omega

omit [DecidableEq α] in
theorem SMap.rising_dropWhile {lo : Option Nat} {m : SMap α} (h : SMap.rising lo m = true) (p : Nat × α → Bool) :
    SMap.rising lo (m.dropWhile p) = true := by
  induction m generalizing lo with
  | nil => rfl
  | cons x t ih =>
    obtain ⟨k', v'⟩ := x
    by_cases hp : p (k', v') = true
    · rw [List.dropWhile_cons_of_pos hp]
      simp only [SMap.rising, Bool.and_eq_true] at h
      refine ih (SMap.rising_weaken h.2 ?_)
      intro l hl
      subst hl
      refine ⟨k', rfl, ?_⟩
      have := h.1
      simp only [decide_eq_true_eq] at this
      omega
    · rw [List.dropWhile_cons_of_neg hp]
      exact h

omit [DecidableEq α] in
theorem SMap.rising_erase {lo : Option Nat} {m : SMap α} (h : SMap.rising lo m = true) (k : Nat) :
    SMap.rising lo (SMap.erase m k) = true := by
  induction m generalizing lo with
  | nil => rfl
  | cons p t ih =>
    obtain ⟨k', v'⟩ := p
    simp only [SMap.erase]
    have h' := h
    simp only [SMap.rising, Bool.and_eq_true] at h'
    split
    · refine SMap.rising_dropWhile (SMap.rising_weaken h'.2 ?_) _
      intro l hl
      subst hl
      refine ⟨k', rfl, ?_⟩
      have := h'.1
      simp only [decide_eq_true_eq] at this
      omega
    · split
      · exact h
      · simp only [SMap.rising, Bool.and_eq_true]
        exact ⟨h'.1, ih h'.2⟩

omit [DecidableEq α] in
theorem SMap.mem_put {m : SMap α} {k : Nat} {v : α} {p : Nat × α} (h : p ∈ SMap.put m k v) : p = (k, v) ∨ p ∈ m := by
  induction m with
  | nil => simp_all [SMap.put]
  | cons q t ih =>
    obtain ⟨k', v'⟩ := q
    simp only [SMap.put] at h
    split at h
    · simp only [List.mem_cons] at h ⊢
      exact h.imp_right .inr
    · split at h
      · simpa using h
      · simp only [List.mem_cons] at h ⊢
        rcases h with h | h
        · exact .inr (.inl h)
        · rcases ih h with h | h
          · exact .inl h
          · exact .inr (.inr h)

omit [DecidableEq α] in
theorem SMap.mem_erase {m : SMap α} {k : Nat} {p : Nat × α} (h : p ∈ SMap.erase m k) : p ∈ m := by
  induction m with
  | nil => exact h
  | cons q t ih =>
    obtain ⟨k', v'⟩ := q
    simp only [SMap.erase] at h
    split at h
    · exact List.mem_cons_of_mem _ ((List.dropWhile_sublist _).mem h)
    · split at h
      · exact h
      · simp only [List.mem_cons] at h ⊢
        rcases h with h | h
        · exact .inl h
        · exact .inr (ih h)

/-- Every write keeps the canonical form. -/
theorem SMap.wf_set {d : α} {m : SMap α} (h : SMap.wf d m = true) (k : Nat) (v : α) : SMap.wf d (SMap.set d m k v) = true := by
  simp only [SMap.wf, Bool.and_eq_true, List.all_eq_true, decide_eq_true_eq] at h ⊢
  unfold SMap.set
  split
  · exact ⟨SMap.rising_erase h.1 k, fun p hp => h.2 p (SMap.mem_erase hp)⟩
  · rename_i hv
    refine ⟨SMap.rising_put h.1 k v (by intro l hl; cases hl), fun p hp => ?_⟩
    rcases SMap.mem_put hp with rfl | hp
    · exact hv
    · exact h.2 p hp

theorem SMap.wf_upd {d : α} {m : SMap α} (h : SMap.wf d m = true) (k : Nat) (f : α → α) :
    SMap.wf d (SMap.upd d m k f) = true := SMap.wf_set h k _

omit [DecidableEq α] in
theorem SMap.rising_filter {lo : Option Nat} {m : SMap α} (h : SMap.rising lo m = true) (p : Nat × α → Bool) :
    SMap.rising lo (m.filter p) = true := by
  induction m generalizing lo with
  | nil => rfl
  | cons x t ih =>
    obtain ⟨k', v'⟩ := x
    simp only [SMap.rising, Bool.and_eq_true] at h
    by_cases hp : p (k', v') = true
    · simp only [List.filter_cons_of_pos hp, SMap.rising, Bool.and_eq_true]
      exact ⟨h.1, ih h.2⟩
    · rw [List.filter_cons_of_neg hp]
      refine ih (SMap.rising_weaken h.2 ?_)
      intro l hl
      subst hl
      refine ⟨k', rfl, ?_⟩
      have := h.1
      simp only [decide_eq_true_eq] at this
      omega

/-- Keeping the entries of some keys keeps the canonical form. -/
theorem SMap.wf_keep {d : α} {m : SMap α} (h : SMap.wf d m = true) (p : Nat → Bool) : SMap.wf d (SMap.keep p m) = true := by
  simp only [SMap.wf, Bool.and_eq_true, List.all_eq_true, decide_eq_true_eq] at h ⊢
  exact ⟨SMap.rising_filter h.1 _, fun q hq => h.2 q (List.mem_filter.mp hq).1⟩

theorem SMap.rising_mapv (d : α) {lo : Option Nat} {m : SMap α} (h : SMap.rising lo m = true) (f : α → α) :
    SMap.rising lo (SMap.mapv d f m) = true := by
  induction m generalizing lo with
  | nil => rfl
  | cons x t ih =>
    obtain ⟨k', v'⟩ := x
    simp only [SMap.rising, Bool.and_eq_true] at h
    simp only [SMap.mapv]
    split
    · refine ih (SMap.rising_weaken h.2 ?_)
      intro l hl
      subst hl
      refine ⟨k', rfl, ?_⟩
      have := h.1
      simp only [decide_eq_true_eq] at this
      omega
    · simp only [SMap.rising, Bool.and_eq_true]
      exact ⟨h.1, ih h.2⟩

/-- Applying a function to every listed value keeps the canonical form. -/
theorem SMap.wf_mapv {d : α} {m : SMap α} (h : SMap.wf d m = true) (f : α → α) : SMap.wf d (SMap.mapv d f m) = true := by
  simp only [SMap.wf, Bool.and_eq_true, List.all_eq_true, decide_eq_true_eq] at h ⊢
  refine ⟨SMap.rising_mapv d h.1 f, ?_⟩
  clear h
  induction m with
  | nil => simp [SMap.mapv]
  | cons x t ih =>
    obtain ⟨k', v'⟩ := x
    simp only [SMap.mapv]
    split
    · exact ih
    · intro p hp
      simp only [List.mem_cons] at hp
      rcases hp with rfl | hp
      · assumption
      · exact ih p hp

end Sys2Proof
end

