-- ==== Sys2Proof/Laws/State.lean ====
section
/-! SUPPORT. What each update of State leaves as it was: one lemma per field per update, true by definition, so that no proof
unfolds a record update; and what each update writes. -/

namespace Sys2Proof.Machine

/-! ### setReg -/

@[simp] theorem State.setReg_pending (s : State) (r : Reg) (v : Word) (i j : Nat) : (s.setReg r v i j).pending = s.pending := rfl
@[simp] theorem State.setReg_part (s : State) (r : Reg) (v : Word) (i j : Nat) : (s.setReg r v i j).part = s.part := rfl
@[simp] theorem State.setReg_dOn (s : State) (r : Reg) (v : Word) (i j : Nat) : (s.setReg r v i j).dOn = s.dOn := rfl
@[simp] theorem State.setReg_prep (s : State) (r : Reg) (v : Word) (i j : Nat) : (s.setReg r v i j).prep = s.prep := rfl
@[simp] theorem State.setReg_ctrs (s : State) (r : Reg) (v : Word) (i j : Nat) : (s.setReg r v i j).ctrs = s.ctrs := rfl
@[simp] theorem State.setReg_snap (s : State) (r : Reg) (v : Word) (i j : Nat) : (s.setReg r v i j).snap = s.snap := rfl
@[simp] theorem State.setReg_hiLatch (s : State) (r : Reg) (v : Word) (i j : Nat) : (s.setReg r v i j).hiLatch = s.hiLatch := rfl
@[simp] theorem State.setReg_time (s : State) (r : Reg) (v : Word) (i j : Nat) : (s.setReg r v i j).time = s.time := rfl
@[simp] theorem State.setReg_ports (s : State) (r : Reg) (v : Word) (i j : Nat) : (s.setReg r v i j).ports = s.ports := rfl
@[simp] theorem State.setReg_held (s : State) (r : Reg) (v : Word) (i j : Nat) : (s.setReg r v i j).held = s.held := rfl
@[simp] theorem State.setReg_nextFrame (s : State) (r : Reg) (v : Word) (i j : Nat) : (s.setReg r v i j).nextFrame = s.nextFrame := rfl
@[simp] theorem State.setReg_copies (s : State) (r : Reg) (v : Word) (i j : Nat) : (s.setReg r v i j).copies = s.copies := rfl
@[simp] theorem State.setReg_nextCopy (s : State) (r : Reg) (v : Word) (i j : Nat) : (s.setReg r v i j).nextCopy = s.nextCopy := rfl
@[simp] theorem State.setReg_queues (s : State) (r : Reg) (v : Word) (i j : Nat) : (s.setReg r v i j).queues = s.queues := rfl
@[simp] theorem State.setReg_picFull (s : State) (r : Reg) (v : Word) (i j : Nat) : (s.setReg r v i j).picFull = s.picFull := rfl
@[simp] theorem State.setReg_pics (s : State) (r : Reg) (v : Word) (i j : Nat) : (s.setReg r v i j).pics = s.pics := rfl
@[simp] theorem State.setReg_tracks (s : State) (r : Reg) (v : Word) (i j : Nat) : (s.setReg r v i j).tracks = s.tracks := rfl
@[simp] theorem State.setReg_audit (s : State) (r : Reg) (v : Word) (i j : Nat) : (s.setReg r v i j).audit = s.audit := rfl
@[simp] theorem State.setReg_softRetired (s : State) (r : Reg) (v : Word) (i j : Nat) : (s.setReg r v i j).softRetired = s.softRetired := rfl
@[simp] theorem State.setReg_graphEpoch (s : State) (r : Reg) (v : Word) (i j : Nat) : (s.setReg r v i j).graphEpoch = s.graphEpoch := rfl
@[simp] theorem State.setReg_twin (s : State) (r : Reg) (v : Word) (i j : Nat) : (s.setReg r v i j).twin = s.twin := rfl
@[simp] theorem State.setReg_ruleEpoch (s : State) (r : Reg) (v : Word) (i j : Nat) : (s.setReg r v i j).ruleEpoch = s.ruleEpoch := rfl
@[simp] theorem State.setReg_ruleCopy (s : State) (r : Reg) (v : Word) (i j : Nat) : (s.setReg r v i j).ruleCopy = s.ruleCopy := rfl
@[simp] theorem State.setReg_gw (s : State) (r : Reg) (v : Word) (i j : Nat) : (s.setReg r v i j).gw = s.gw := rfl
@[simp] theorem State.setReg_eng (s : State) (r : Reg) (v : Word) (i j : Nat) : (s.setReg r v i j).eng = s.eng := rfl
@[simp] theorem State.setReg_loader (s : State) (r : Reg) (v : Word) (i j : Nat) : (s.setReg r v i j).loader = s.loader := rfl
@[simp] theorem State.setReg_hif (s : State) (r : Reg) (v : Word) (i j : Nat) : (s.setReg r v i j).hif = s.hif := rfl
@[simp] theorem State.setReg_cry (s : State) (r : Reg) (v : Word) (i j : Nat) : (s.setReg r v i j).cry = s.cry := rfl
@[simp] theorem State.setReg_ret (s : State) (r : Reg) (v : Word) (i j : Nat) : (s.setReg r v i j).ret = s.ret := rfl
@[simp] theorem State.setReg_chk (s : State) (r : Reg) (v : Word) (i j : Nat) : (s.setReg r v i j).chk = s.chk := rfl
@[simp] theorem State.setReg_bug (s : State) (r : Reg) (v : Word) (i j : Nat) : (s.setReg r v i j).bug = s.bug := rfl
@[simp] theorem State.setReg_upd (s : State) (r : Reg) (v : Word) (i j : Nat) : (s.setReg r v i j).upd = s.upd := rfl
@[simp] theorem State.setReg_clk (s : State) (r : Reg) (v : Word) (i j : Nat) : (s.setReg r v i j).clk = s.clk := rfl
@[simp] theorem State.setReg_lim (s : State) (r : Reg) (v : Word) (i j : Nat) : (s.setReg r v i j).lim = s.lim := rfl
@[simp] theorem State.setReg_gpioHold (s : State) (r : Reg) (v : Word) (i j : Nat) : (s.setReg r v i j).gpioHold = s.gpioHold := rfl
@[simp] theorem State.setReg_snapAt (s : State) (r : Reg) (v : Word) (i j : Nat) : (s.setReg r v i j).snapAt = s.snapAt := rfl
@[simp] theorem State.setReg_out (s : State) (r : Reg) (v : Word) (i j : Nat) : (s.setReg r v i j).out = s.out := rfl
@[simp] theorem State.setReg_free (s : State) (r : Reg) (v : Word) (i j : Nat) : (s.setReg r v i j).free = s.free := rfl

/-! ### setPort -/

@[simp] theorem State.setPort_pending (s : State) (n : Nat) (p : PortSt) : (s.setPort n p).pending = s.pending := rfl
@[simp] theorem State.setPort_part (s : State) (n : Nat) (p : PortSt) : (s.setPort n p).part = s.part := rfl
@[simp] theorem State.setPort_dOn (s : State) (n : Nat) (p : PortSt) : (s.setPort n p).dOn = s.dOn := rfl
@[simp] theorem State.setPort_regs (s : State) (n : Nat) (p : PortSt) : (s.setPort n p).regs = s.regs := rfl
@[simp] theorem State.setPort_prep (s : State) (n : Nat) (p : PortSt) : (s.setPort n p).prep = s.prep := rfl
@[simp] theorem State.setPort_ctrs (s : State) (n : Nat) (p : PortSt) : (s.setPort n p).ctrs = s.ctrs := rfl
@[simp] theorem State.setPort_snap (s : State) (n : Nat) (p : PortSt) : (s.setPort n p).snap = s.snap := rfl
@[simp] theorem State.setPort_hiLatch (s : State) (n : Nat) (p : PortSt) : (s.setPort n p).hiLatch = s.hiLatch := rfl
@[simp] theorem State.setPort_time (s : State) (n : Nat) (p : PortSt) : (s.setPort n p).time = s.time := rfl
@[simp] theorem State.setPort_held (s : State) (n : Nat) (p : PortSt) : (s.setPort n p).held = s.held := rfl
@[simp] theorem State.setPort_nextFrame (s : State) (n : Nat) (p : PortSt) : (s.setPort n p).nextFrame = s.nextFrame := rfl
@[simp] theorem State.setPort_copies (s : State) (n : Nat) (p : PortSt) : (s.setPort n p).copies = s.copies := rfl
@[simp] theorem State.setPort_nextCopy (s : State) (n : Nat) (p : PortSt) : (s.setPort n p).nextCopy = s.nextCopy := rfl
@[simp] theorem State.setPort_queues (s : State) (n : Nat) (p : PortSt) : (s.setPort n p).queues = s.queues := rfl
@[simp] theorem State.setPort_picFull (s : State) (n : Nat) (p : PortSt) : (s.setPort n p).picFull = s.picFull := rfl
@[simp] theorem State.setPort_pics (s : State) (n : Nat) (p : PortSt) : (s.setPort n p).pics = s.pics := rfl
@[simp] theorem State.setPort_tracks (s : State) (n : Nat) (p : PortSt) : (s.setPort n p).tracks = s.tracks := rfl
@[simp] theorem State.setPort_audit (s : State) (n : Nat) (p : PortSt) : (s.setPort n p).audit = s.audit := rfl
@[simp] theorem State.setPort_softRetired (s : State) (n : Nat) (p : PortSt) : (s.setPort n p).softRetired = s.softRetired := rfl
@[simp] theorem State.setPort_graphEpoch (s : State) (n : Nat) (p : PortSt) : (s.setPort n p).graphEpoch = s.graphEpoch := rfl
@[simp] theorem State.setPort_twin (s : State) (n : Nat) (p : PortSt) : (s.setPort n p).twin = s.twin := rfl
@[simp] theorem State.setPort_ruleEpoch (s : State) (n : Nat) (p : PortSt) : (s.setPort n p).ruleEpoch = s.ruleEpoch := rfl
@[simp] theorem State.setPort_ruleCopy (s : State) (n : Nat) (p : PortSt) : (s.setPort n p).ruleCopy = s.ruleCopy := rfl
@[simp] theorem State.setPort_gw (s : State) (n : Nat) (p : PortSt) : (s.setPort n p).gw = s.gw := rfl
@[simp] theorem State.setPort_eng (s : State) (n : Nat) (p : PortSt) : (s.setPort n p).eng = s.eng := rfl
@[simp] theorem State.setPort_loader (s : State) (n : Nat) (p : PortSt) : (s.setPort n p).loader = s.loader := rfl
@[simp] theorem State.setPort_hif (s : State) (n : Nat) (p : PortSt) : (s.setPort n p).hif = s.hif := rfl
@[simp] theorem State.setPort_cry (s : State) (n : Nat) (p : PortSt) : (s.setPort n p).cry = s.cry := rfl
@[simp] theorem State.setPort_ret (s : State) (n : Nat) (p : PortSt) : (s.setPort n p).ret = s.ret := rfl
@[simp] theorem State.setPort_chk (s : State) (n : Nat) (p : PortSt) : (s.setPort n p).chk = s.chk := rfl
@[simp] theorem State.setPort_bug (s : State) (n : Nat) (p : PortSt) : (s.setPort n p).bug = s.bug := rfl
@[simp] theorem State.setPort_upd (s : State) (n : Nat) (p : PortSt) : (s.setPort n p).upd = s.upd := rfl
@[simp] theorem State.setPort_clk (s : State) (n : Nat) (p : PortSt) : (s.setPort n p).clk = s.clk := rfl
@[simp] theorem State.setPort_lim (s : State) (n : Nat) (p : PortSt) : (s.setPort n p).lim = s.lim := rfl
@[simp] theorem State.setPort_gpioHold (s : State) (n : Nat) (p : PortSt) : (s.setPort n p).gpioHold = s.gpioHold := rfl
@[simp] theorem State.setPort_snapAt (s : State) (n : Nat) (p : PortSt) : (s.setPort n p).snapAt = s.snapAt := rfl
@[simp] theorem State.setPort_out (s : State) (n : Nat) (p : PortSt) : (s.setPort n p).out = s.out := rfl
@[simp] theorem State.setPort_free (s : State) (n : Nat) (p : PortSt) : (s.setPort n p).free = s.free := rfl

/-! ### setQueue -/

@[simp] theorem State.setQueue_pending (s : State) (q : Nat) (v : Queue) : (s.setQueue q v).pending = s.pending := rfl
@[simp] theorem State.setQueue_part (s : State) (q : Nat) (v : Queue) : (s.setQueue q v).part = s.part := rfl
@[simp] theorem State.setQueue_dOn (s : State) (q : Nat) (v : Queue) : (s.setQueue q v).dOn = s.dOn := rfl
@[simp] theorem State.setQueue_regs (s : State) (q : Nat) (v : Queue) : (s.setQueue q v).regs = s.regs := rfl
@[simp] theorem State.setQueue_prep (s : State) (q : Nat) (v : Queue) : (s.setQueue q v).prep = s.prep := rfl
@[simp] theorem State.setQueue_ctrs (s : State) (q : Nat) (v : Queue) : (s.setQueue q v).ctrs = s.ctrs := rfl
@[simp] theorem State.setQueue_snap (s : State) (q : Nat) (v : Queue) : (s.setQueue q v).snap = s.snap := rfl
@[simp] theorem State.setQueue_hiLatch (s : State) (q : Nat) (v : Queue) : (s.setQueue q v).hiLatch = s.hiLatch := rfl
@[simp] theorem State.setQueue_time (s : State) (q : Nat) (v : Queue) : (s.setQueue q v).time = s.time := rfl
@[simp] theorem State.setQueue_ports (s : State) (q : Nat) (v : Queue) : (s.setQueue q v).ports = s.ports := rfl
@[simp] theorem State.setQueue_held (s : State) (q : Nat) (v : Queue) : (s.setQueue q v).held = s.held := rfl
@[simp] theorem State.setQueue_nextFrame (s : State) (q : Nat) (v : Queue) : (s.setQueue q v).nextFrame = s.nextFrame := rfl
@[simp] theorem State.setQueue_copies (s : State) (q : Nat) (v : Queue) : (s.setQueue q v).copies = s.copies := rfl
@[simp] theorem State.setQueue_nextCopy (s : State) (q : Nat) (v : Queue) : (s.setQueue q v).nextCopy = s.nextCopy := rfl
@[simp] theorem State.setQueue_picFull (s : State) (q : Nat) (v : Queue) : (s.setQueue q v).picFull = s.picFull := rfl
@[simp] theorem State.setQueue_pics (s : State) (q : Nat) (v : Queue) : (s.setQueue q v).pics = s.pics := rfl
@[simp] theorem State.setQueue_tracks (s : State) (q : Nat) (v : Queue) : (s.setQueue q v).tracks = s.tracks := rfl
@[simp] theorem State.setQueue_audit (s : State) (q : Nat) (v : Queue) : (s.setQueue q v).audit = s.audit := rfl
@[simp] theorem State.setQueue_softRetired (s : State) (q : Nat) (v : Queue) : (s.setQueue q v).softRetired = s.softRetired := rfl
@[simp] theorem State.setQueue_graphEpoch (s : State) (q : Nat) (v : Queue) : (s.setQueue q v).graphEpoch = s.graphEpoch := rfl
@[simp] theorem State.setQueue_twin (s : State) (q : Nat) (v : Queue) : (s.setQueue q v).twin = s.twin := rfl
@[simp] theorem State.setQueue_ruleEpoch (s : State) (q : Nat) (v : Queue) : (s.setQueue q v).ruleEpoch = s.ruleEpoch := rfl
@[simp] theorem State.setQueue_ruleCopy (s : State) (q : Nat) (v : Queue) : (s.setQueue q v).ruleCopy = s.ruleCopy := rfl
@[simp] theorem State.setQueue_gw (s : State) (q : Nat) (v : Queue) : (s.setQueue q v).gw = s.gw := rfl
@[simp] theorem State.setQueue_eng (s : State) (q : Nat) (v : Queue) : (s.setQueue q v).eng = s.eng := rfl
@[simp] theorem State.setQueue_loader (s : State) (q : Nat) (v : Queue) : (s.setQueue q v).loader = s.loader := rfl
@[simp] theorem State.setQueue_hif (s : State) (q : Nat) (v : Queue) : (s.setQueue q v).hif = s.hif := rfl
@[simp] theorem State.setQueue_cry (s : State) (q : Nat) (v : Queue) : (s.setQueue q v).cry = s.cry := rfl
@[simp] theorem State.setQueue_ret (s : State) (q : Nat) (v : Queue) : (s.setQueue q v).ret = s.ret := rfl
@[simp] theorem State.setQueue_chk (s : State) (q : Nat) (v : Queue) : (s.setQueue q v).chk = s.chk := rfl
@[simp] theorem State.setQueue_bug (s : State) (q : Nat) (v : Queue) : (s.setQueue q v).bug = s.bug := rfl
@[simp] theorem State.setQueue_upd (s : State) (q : Nat) (v : Queue) : (s.setQueue q v).upd = s.upd := rfl
@[simp] theorem State.setQueue_clk (s : State) (q : Nat) (v : Queue) : (s.setQueue q v).clk = s.clk := rfl
@[simp] theorem State.setQueue_lim (s : State) (q : Nat) (v : Queue) : (s.setQueue q v).lim = s.lim := rfl
@[simp] theorem State.setQueue_gpioHold (s : State) (q : Nat) (v : Queue) : (s.setQueue q v).gpioHold = s.gpioHold := rfl
@[simp] theorem State.setQueue_snapAt (s : State) (q : Nat) (v : Queue) : (s.setQueue q v).snapAt = s.snapAt := rfl
@[simp] theorem State.setQueue_out (s : State) (q : Nat) (v : Queue) : (s.setQueue q v).out = s.out := rfl
@[simp] theorem State.setQueue_free (s : State) (q : Nat) (v : Queue) : (s.setQueue q v).free = s.free := rfl

/-! ### setEngine -/

@[simp] theorem State.setEngine_pending (s : State) (e : Nat) (v : Engine) : (s.setEngine e v).pending = s.pending := rfl
@[simp] theorem State.setEngine_part (s : State) (e : Nat) (v : Engine) : (s.setEngine e v).part = s.part := rfl
@[simp] theorem State.setEngine_dOn (s : State) (e : Nat) (v : Engine) : (s.setEngine e v).dOn = s.dOn := rfl
@[simp] theorem State.setEngine_regs (s : State) (e : Nat) (v : Engine) : (s.setEngine e v).regs = s.regs := rfl
@[simp] theorem State.setEngine_prep (s : State) (e : Nat) (v : Engine) : (s.setEngine e v).prep = s.prep := rfl
@[simp] theorem State.setEngine_ctrs (s : State) (e : Nat) (v : Engine) : (s.setEngine e v).ctrs = s.ctrs := rfl
@[simp] theorem State.setEngine_snap (s : State) (e : Nat) (v : Engine) : (s.setEngine e v).snap = s.snap := rfl
@[simp] theorem State.setEngine_hiLatch (s : State) (e : Nat) (v : Engine) : (s.setEngine e v).hiLatch = s.hiLatch := rfl
@[simp] theorem State.setEngine_time (s : State) (e : Nat) (v : Engine) : (s.setEngine e v).time = s.time := rfl
@[simp] theorem State.setEngine_ports (s : State) (e : Nat) (v : Engine) : (s.setEngine e v).ports = s.ports := rfl
@[simp] theorem State.setEngine_held (s : State) (e : Nat) (v : Engine) : (s.setEngine e v).held = s.held := rfl
@[simp] theorem State.setEngine_nextFrame (s : State) (e : Nat) (v : Engine) : (s.setEngine e v).nextFrame = s.nextFrame := rfl
@[simp] theorem State.setEngine_copies (s : State) (e : Nat) (v : Engine) : (s.setEngine e v).copies = s.copies := rfl
@[simp] theorem State.setEngine_nextCopy (s : State) (e : Nat) (v : Engine) : (s.setEngine e v).nextCopy = s.nextCopy := rfl
@[simp] theorem State.setEngine_queues (s : State) (e : Nat) (v : Engine) : (s.setEngine e v).queues = s.queues := rfl
@[simp] theorem State.setEngine_picFull (s : State) (e : Nat) (v : Engine) : (s.setEngine e v).picFull = s.picFull := rfl
@[simp] theorem State.setEngine_pics (s : State) (e : Nat) (v : Engine) : (s.setEngine e v).pics = s.pics := rfl
@[simp] theorem State.setEngine_tracks (s : State) (e : Nat) (v : Engine) : (s.setEngine e v).tracks = s.tracks := rfl
@[simp] theorem State.setEngine_audit (s : State) (e : Nat) (v : Engine) : (s.setEngine e v).audit = s.audit := rfl
@[simp] theorem State.setEngine_softRetired (s : State) (e : Nat) (v : Engine) : (s.setEngine e v).softRetired = s.softRetired := rfl
@[simp] theorem State.setEngine_graphEpoch (s : State) (e : Nat) (v : Engine) : (s.setEngine e v).graphEpoch = s.graphEpoch := rfl
@[simp] theorem State.setEngine_twin (s : State) (e : Nat) (v : Engine) : (s.setEngine e v).twin = s.twin := rfl
@[simp] theorem State.setEngine_ruleEpoch (s : State) (e : Nat) (v : Engine) : (s.setEngine e v).ruleEpoch = s.ruleEpoch := rfl
@[simp] theorem State.setEngine_ruleCopy (s : State) (e : Nat) (v : Engine) : (s.setEngine e v).ruleCopy = s.ruleCopy := rfl
@[simp] theorem State.setEngine_gw (s : State) (e : Nat) (v : Engine) : (s.setEngine e v).gw = s.gw := rfl
@[simp] theorem State.setEngine_loader (s : State) (e : Nat) (v : Engine) : (s.setEngine e v).loader = s.loader := rfl
@[simp] theorem State.setEngine_hif (s : State) (e : Nat) (v : Engine) : (s.setEngine e v).hif = s.hif := rfl
@[simp] theorem State.setEngine_cry (s : State) (e : Nat) (v : Engine) : (s.setEngine e v).cry = s.cry := rfl
@[simp] theorem State.setEngine_ret (s : State) (e : Nat) (v : Engine) : (s.setEngine e v).ret = s.ret := rfl
@[simp] theorem State.setEngine_chk (s : State) (e : Nat) (v : Engine) : (s.setEngine e v).chk = s.chk := rfl
@[simp] theorem State.setEngine_bug (s : State) (e : Nat) (v : Engine) : (s.setEngine e v).bug = s.bug := rfl
@[simp] theorem State.setEngine_upd (s : State) (e : Nat) (v : Engine) : (s.setEngine e v).upd = s.upd := rfl
@[simp] theorem State.setEngine_clk (s : State) (e : Nat) (v : Engine) : (s.setEngine e v).clk = s.clk := rfl
@[simp] theorem State.setEngine_lim (s : State) (e : Nat) (v : Engine) : (s.setEngine e v).lim = s.lim := rfl
@[simp] theorem State.setEngine_gpioHold (s : State) (e : Nat) (v : Engine) : (s.setEngine e v).gpioHold = s.gpioHold := rfl
@[simp] theorem State.setEngine_snapAt (s : State) (e : Nat) (v : Engine) : (s.setEngine e v).snapAt = s.snapAt := rfl
@[simp] theorem State.setEngine_out (s : State) (e : Nat) (v : Engine) : (s.setEngine e v).out = s.out := rfl
@[simp] theorem State.setEngine_free (s : State) (e : Nat) (v : Engine) : (s.setEngine e v).free = s.free := rfl

/-! ### setCan -/

@[simp] theorem State.setCan_pending (s : State) (c : Nat) (v : Can) : (s.setCan c v).pending = s.pending := rfl
@[simp] theorem State.setCan_part (s : State) (c : Nat) (v : Can) : (s.setCan c v).part = s.part := rfl
@[simp] theorem State.setCan_dOn (s : State) (c : Nat) (v : Can) : (s.setCan c v).dOn = s.dOn := rfl
@[simp] theorem State.setCan_regs (s : State) (c : Nat) (v : Can) : (s.setCan c v).regs = s.regs := rfl
@[simp] theorem State.setCan_prep (s : State) (c : Nat) (v : Can) : (s.setCan c v).prep = s.prep := rfl
@[simp] theorem State.setCan_ctrs (s : State) (c : Nat) (v : Can) : (s.setCan c v).ctrs = s.ctrs := rfl
@[simp] theorem State.setCan_snap (s : State) (c : Nat) (v : Can) : (s.setCan c v).snap = s.snap := rfl
@[simp] theorem State.setCan_hiLatch (s : State) (c : Nat) (v : Can) : (s.setCan c v).hiLatch = s.hiLatch := rfl
@[simp] theorem State.setCan_time (s : State) (c : Nat) (v : Can) : (s.setCan c v).time = s.time := rfl
@[simp] theorem State.setCan_ports (s : State) (c : Nat) (v : Can) : (s.setCan c v).ports = s.ports := rfl
@[simp] theorem State.setCan_held (s : State) (c : Nat) (v : Can) : (s.setCan c v).held = s.held := rfl
@[simp] theorem State.setCan_nextFrame (s : State) (c : Nat) (v : Can) : (s.setCan c v).nextFrame = s.nextFrame := rfl
@[simp] theorem State.setCan_copies (s : State) (c : Nat) (v : Can) : (s.setCan c v).copies = s.copies := rfl
@[simp] theorem State.setCan_nextCopy (s : State) (c : Nat) (v : Can) : (s.setCan c v).nextCopy = s.nextCopy := rfl
@[simp] theorem State.setCan_queues (s : State) (c : Nat) (v : Can) : (s.setCan c v).queues = s.queues := rfl
@[simp] theorem State.setCan_picFull (s : State) (c : Nat) (v : Can) : (s.setCan c v).picFull = s.picFull := rfl
@[simp] theorem State.setCan_pics (s : State) (c : Nat) (v : Can) : (s.setCan c v).pics = s.pics := rfl
@[simp] theorem State.setCan_tracks (s : State) (c : Nat) (v : Can) : (s.setCan c v).tracks = s.tracks := rfl
@[simp] theorem State.setCan_audit (s : State) (c : Nat) (v : Can) : (s.setCan c v).audit = s.audit := rfl
@[simp] theorem State.setCan_softRetired (s : State) (c : Nat) (v : Can) : (s.setCan c v).softRetired = s.softRetired := rfl
@[simp] theorem State.setCan_graphEpoch (s : State) (c : Nat) (v : Can) : (s.setCan c v).graphEpoch = s.graphEpoch := rfl
@[simp] theorem State.setCan_twin (s : State) (c : Nat) (v : Can) : (s.setCan c v).twin = s.twin := rfl
@[simp] theorem State.setCan_ruleEpoch (s : State) (c : Nat) (v : Can) : (s.setCan c v).ruleEpoch = s.ruleEpoch := rfl
@[simp] theorem State.setCan_ruleCopy (s : State) (c : Nat) (v : Can) : (s.setCan c v).ruleCopy = s.ruleCopy := rfl
@[simp] theorem State.setCan_eng (s : State) (c : Nat) (v : Can) : (s.setCan c v).eng = s.eng := rfl
@[simp] theorem State.setCan_loader (s : State) (c : Nat) (v : Can) : (s.setCan c v).loader = s.loader := rfl
@[simp] theorem State.setCan_hif (s : State) (c : Nat) (v : Can) : (s.setCan c v).hif = s.hif := rfl
@[simp] theorem State.setCan_cry (s : State) (c : Nat) (v : Can) : (s.setCan c v).cry = s.cry := rfl
@[simp] theorem State.setCan_ret (s : State) (c : Nat) (v : Can) : (s.setCan c v).ret = s.ret := rfl
@[simp] theorem State.setCan_chk (s : State) (c : Nat) (v : Can) : (s.setCan c v).chk = s.chk := rfl
@[simp] theorem State.setCan_bug (s : State) (c : Nat) (v : Can) : (s.setCan c v).bug = s.bug := rfl
@[simp] theorem State.setCan_upd (s : State) (c : Nat) (v : Can) : (s.setCan c v).upd = s.upd := rfl
@[simp] theorem State.setCan_clk (s : State) (c : Nat) (v : Can) : (s.setCan c v).clk = s.clk := rfl
@[simp] theorem State.setCan_lim (s : State) (c : Nat) (v : Can) : (s.setCan c v).lim = s.lim := rfl
@[simp] theorem State.setCan_gpioHold (s : State) (c : Nat) (v : Can) : (s.setCan c v).gpioHold = s.gpioHold := rfl
@[simp] theorem State.setCan_snapAt (s : State) (c : Nat) (v : Can) : (s.setCan c v).snapAt = s.snapAt := rfl
@[simp] theorem State.setCan_out (s : State) (c : Nat) (v : Can) : (s.setCan c v).out = s.out := rfl
@[simp] theorem State.setCan_free (s : State) (c : Nat) (v : Can) : (s.setCan c v).free = s.free := rfl

/-! ### setLin -/

@[simp] theorem State.setLin_pending (s : State) (l : Nat) (v : Lin) : (s.setLin l v).pending = s.pending := rfl
@[simp] theorem State.setLin_part (s : State) (l : Nat) (v : Lin) : (s.setLin l v).part = s.part := rfl
@[simp] theorem State.setLin_dOn (s : State) (l : Nat) (v : Lin) : (s.setLin l v).dOn = s.dOn := rfl
@[simp] theorem State.setLin_regs (s : State) (l : Nat) (v : Lin) : (s.setLin l v).regs = s.regs := rfl
@[simp] theorem State.setLin_prep (s : State) (l : Nat) (v : Lin) : (s.setLin l v).prep = s.prep := rfl
@[simp] theorem State.setLin_ctrs (s : State) (l : Nat) (v : Lin) : (s.setLin l v).ctrs = s.ctrs := rfl
@[simp] theorem State.setLin_snap (s : State) (l : Nat) (v : Lin) : (s.setLin l v).snap = s.snap := rfl
@[simp] theorem State.setLin_hiLatch (s : State) (l : Nat) (v : Lin) : (s.setLin l v).hiLatch = s.hiLatch := rfl
@[simp] theorem State.setLin_time (s : State) (l : Nat) (v : Lin) : (s.setLin l v).time = s.time := rfl
@[simp] theorem State.setLin_ports (s : State) (l : Nat) (v : Lin) : (s.setLin l v).ports = s.ports := rfl
@[simp] theorem State.setLin_held (s : State) (l : Nat) (v : Lin) : (s.setLin l v).held = s.held := rfl
@[simp] theorem State.setLin_nextFrame (s : State) (l : Nat) (v : Lin) : (s.setLin l v).nextFrame = s.nextFrame := rfl
@[simp] theorem State.setLin_copies (s : State) (l : Nat) (v : Lin) : (s.setLin l v).copies = s.copies := rfl
@[simp] theorem State.setLin_nextCopy (s : State) (l : Nat) (v : Lin) : (s.setLin l v).nextCopy = s.nextCopy := rfl
@[simp] theorem State.setLin_queues (s : State) (l : Nat) (v : Lin) : (s.setLin l v).queues = s.queues := rfl
@[simp] theorem State.setLin_picFull (s : State) (l : Nat) (v : Lin) : (s.setLin l v).picFull = s.picFull := rfl
@[simp] theorem State.setLin_pics (s : State) (l : Nat) (v : Lin) : (s.setLin l v).pics = s.pics := rfl
@[simp] theorem State.setLin_tracks (s : State) (l : Nat) (v : Lin) : (s.setLin l v).tracks = s.tracks := rfl
@[simp] theorem State.setLin_audit (s : State) (l : Nat) (v : Lin) : (s.setLin l v).audit = s.audit := rfl
@[simp] theorem State.setLin_softRetired (s : State) (l : Nat) (v : Lin) : (s.setLin l v).softRetired = s.softRetired := rfl
@[simp] theorem State.setLin_graphEpoch (s : State) (l : Nat) (v : Lin) : (s.setLin l v).graphEpoch = s.graphEpoch := rfl
@[simp] theorem State.setLin_twin (s : State) (l : Nat) (v : Lin) : (s.setLin l v).twin = s.twin := rfl
@[simp] theorem State.setLin_ruleEpoch (s : State) (l : Nat) (v : Lin) : (s.setLin l v).ruleEpoch = s.ruleEpoch := rfl
@[simp] theorem State.setLin_ruleCopy (s : State) (l : Nat) (v : Lin) : (s.setLin l v).ruleCopy = s.ruleCopy := rfl
@[simp] theorem State.setLin_eng (s : State) (l : Nat) (v : Lin) : (s.setLin l v).eng = s.eng := rfl
@[simp] theorem State.setLin_loader (s : State) (l : Nat) (v : Lin) : (s.setLin l v).loader = s.loader := rfl
@[simp] theorem State.setLin_hif (s : State) (l : Nat) (v : Lin) : (s.setLin l v).hif = s.hif := rfl
@[simp] theorem State.setLin_cry (s : State) (l : Nat) (v : Lin) : (s.setLin l v).cry = s.cry := rfl
@[simp] theorem State.setLin_ret (s : State) (l : Nat) (v : Lin) : (s.setLin l v).ret = s.ret := rfl
@[simp] theorem State.setLin_chk (s : State) (l : Nat) (v : Lin) : (s.setLin l v).chk = s.chk := rfl
@[simp] theorem State.setLin_bug (s : State) (l : Nat) (v : Lin) : (s.setLin l v).bug = s.bug := rfl
@[simp] theorem State.setLin_upd (s : State) (l : Nat) (v : Lin) : (s.setLin l v).upd = s.upd := rfl
@[simp] theorem State.setLin_clk (s : State) (l : Nat) (v : Lin) : (s.setLin l v).clk = s.clk := rfl
@[simp] theorem State.setLin_lim (s : State) (l : Nat) (v : Lin) : (s.setLin l v).lim = s.lim := rfl
@[simp] theorem State.setLin_gpioHold (s : State) (l : Nat) (v : Lin) : (s.setLin l v).gpioHold = s.gpioHold := rfl
@[simp] theorem State.setLin_snapAt (s : State) (l : Nat) (v : Lin) : (s.setLin l v).snapAt = s.snapAt := rfl
@[simp] theorem State.setLin_out (s : State) (l : Nat) (v : Lin) : (s.setLin l v).out = s.out := rfl
@[simp] theorem State.setLin_free (s : State) (l : Nat) (v : Lin) : (s.setLin l v).free = s.free := rfl

/-! ### setRing -/

@[simp] theorem State.setRing_pending (s : State) (r : Nat) (v : Ring) : (s.setRing r v).pending = s.pending := rfl
@[simp] theorem State.setRing_part (s : State) (r : Nat) (v : Ring) : (s.setRing r v).part = s.part := rfl
@[simp] theorem State.setRing_dOn (s : State) (r : Nat) (v : Ring) : (s.setRing r v).dOn = s.dOn := rfl
@[simp] theorem State.setRing_regs (s : State) (r : Nat) (v : Ring) : (s.setRing r v).regs = s.regs := rfl
@[simp] theorem State.setRing_prep (s : State) (r : Nat) (v : Ring) : (s.setRing r v).prep = s.prep := rfl
@[simp] theorem State.setRing_ctrs (s : State) (r : Nat) (v : Ring) : (s.setRing r v).ctrs = s.ctrs := rfl
@[simp] theorem State.setRing_snap (s : State) (r : Nat) (v : Ring) : (s.setRing r v).snap = s.snap := rfl
@[simp] theorem State.setRing_hiLatch (s : State) (r : Nat) (v : Ring) : (s.setRing r v).hiLatch = s.hiLatch := rfl
@[simp] theorem State.setRing_time (s : State) (r : Nat) (v : Ring) : (s.setRing r v).time = s.time := rfl
@[simp] theorem State.setRing_ports (s : State) (r : Nat) (v : Ring) : (s.setRing r v).ports = s.ports := rfl
@[simp] theorem State.setRing_held (s : State) (r : Nat) (v : Ring) : (s.setRing r v).held = s.held := rfl
@[simp] theorem State.setRing_nextFrame (s : State) (r : Nat) (v : Ring) : (s.setRing r v).nextFrame = s.nextFrame := rfl
@[simp] theorem State.setRing_copies (s : State) (r : Nat) (v : Ring) : (s.setRing r v).copies = s.copies := rfl
@[simp] theorem State.setRing_nextCopy (s : State) (r : Nat) (v : Ring) : (s.setRing r v).nextCopy = s.nextCopy := rfl
@[simp] theorem State.setRing_queues (s : State) (r : Nat) (v : Ring) : (s.setRing r v).queues = s.queues := rfl
@[simp] theorem State.setRing_picFull (s : State) (r : Nat) (v : Ring) : (s.setRing r v).picFull = s.picFull := rfl
@[simp] theorem State.setRing_pics (s : State) (r : Nat) (v : Ring) : (s.setRing r v).pics = s.pics := rfl
@[simp] theorem State.setRing_tracks (s : State) (r : Nat) (v : Ring) : (s.setRing r v).tracks = s.tracks := rfl
@[simp] theorem State.setRing_audit (s : State) (r : Nat) (v : Ring) : (s.setRing r v).audit = s.audit := rfl
@[simp] theorem State.setRing_softRetired (s : State) (r : Nat) (v : Ring) : (s.setRing r v).softRetired = s.softRetired := rfl
@[simp] theorem State.setRing_graphEpoch (s : State) (r : Nat) (v : Ring) : (s.setRing r v).graphEpoch = s.graphEpoch := rfl
@[simp] theorem State.setRing_twin (s : State) (r : Nat) (v : Ring) : (s.setRing r v).twin = s.twin := rfl
@[simp] theorem State.setRing_ruleEpoch (s : State) (r : Nat) (v : Ring) : (s.setRing r v).ruleEpoch = s.ruleEpoch := rfl
@[simp] theorem State.setRing_ruleCopy (s : State) (r : Nat) (v : Ring) : (s.setRing r v).ruleCopy = s.ruleCopy := rfl
@[simp] theorem State.setRing_gw (s : State) (r : Nat) (v : Ring) : (s.setRing r v).gw = s.gw := rfl
@[simp] theorem State.setRing_eng (s : State) (r : Nat) (v : Ring) : (s.setRing r v).eng = s.eng := rfl
@[simp] theorem State.setRing_loader (s : State) (r : Nat) (v : Ring) : (s.setRing r v).loader = s.loader := rfl
@[simp] theorem State.setRing_cry (s : State) (r : Nat) (v : Ring) : (s.setRing r v).cry = s.cry := rfl
@[simp] theorem State.setRing_ret (s : State) (r : Nat) (v : Ring) : (s.setRing r v).ret = s.ret := rfl
@[simp] theorem State.setRing_chk (s : State) (r : Nat) (v : Ring) : (s.setRing r v).chk = s.chk := rfl
@[simp] theorem State.setRing_bug (s : State) (r : Nat) (v : Ring) : (s.setRing r v).bug = s.bug := rfl
@[simp] theorem State.setRing_upd (s : State) (r : Nat) (v : Ring) : (s.setRing r v).upd = s.upd := rfl
@[simp] theorem State.setRing_clk (s : State) (r : Nat) (v : Ring) : (s.setRing r v).clk = s.clk := rfl
@[simp] theorem State.setRing_lim (s : State) (r : Nat) (v : Ring) : (s.setRing r v).lim = s.lim := rfl
@[simp] theorem State.setRing_gpioHold (s : State) (r : Nat) (v : Ring) : (s.setRing r v).gpioHold = s.gpioHold := rfl
@[simp] theorem State.setRing_snapAt (s : State) (r : Nat) (v : Ring) : (s.setRing r v).snapAt = s.snapAt := rfl
@[simp] theorem State.setRing_out (s : State) (r : Nat) (v : Ring) : (s.setRing r v).out = s.out := rfl
@[simp] theorem State.setRing_free (s : State) (r : Nat) (v : Ring) : (s.setRing r v).free = s.free := rfl

/-! ### setSlot -/

@[simp] theorem State.setSlot_pending (s : State) (k : Nat) (v : Slot) : (s.setSlot k v).pending = s.pending := rfl
@[simp] theorem State.setSlot_part (s : State) (k : Nat) (v : Slot) : (s.setSlot k v).part = s.part := rfl
@[simp] theorem State.setSlot_dOn (s : State) (k : Nat) (v : Slot) : (s.setSlot k v).dOn = s.dOn := rfl
@[simp] theorem State.setSlot_regs (s : State) (k : Nat) (v : Slot) : (s.setSlot k v).regs = s.regs := rfl
@[simp] theorem State.setSlot_prep (s : State) (k : Nat) (v : Slot) : (s.setSlot k v).prep = s.prep := rfl
@[simp] theorem State.setSlot_ctrs (s : State) (k : Nat) (v : Slot) : (s.setSlot k v).ctrs = s.ctrs := rfl
@[simp] theorem State.setSlot_snap (s : State) (k : Nat) (v : Slot) : (s.setSlot k v).snap = s.snap := rfl
@[simp] theorem State.setSlot_hiLatch (s : State) (k : Nat) (v : Slot) : (s.setSlot k v).hiLatch = s.hiLatch := rfl
@[simp] theorem State.setSlot_time (s : State) (k : Nat) (v : Slot) : (s.setSlot k v).time = s.time := rfl
@[simp] theorem State.setSlot_ports (s : State) (k : Nat) (v : Slot) : (s.setSlot k v).ports = s.ports := rfl
@[simp] theorem State.setSlot_held (s : State) (k : Nat) (v : Slot) : (s.setSlot k v).held = s.held := rfl
@[simp] theorem State.setSlot_nextFrame (s : State) (k : Nat) (v : Slot) : (s.setSlot k v).nextFrame = s.nextFrame := rfl
@[simp] theorem State.setSlot_copies (s : State) (k : Nat) (v : Slot) : (s.setSlot k v).copies = s.copies := rfl
@[simp] theorem State.setSlot_nextCopy (s : State) (k : Nat) (v : Slot) : (s.setSlot k v).nextCopy = s.nextCopy := rfl
@[simp] theorem State.setSlot_queues (s : State) (k : Nat) (v : Slot) : (s.setSlot k v).queues = s.queues := rfl
@[simp] theorem State.setSlot_picFull (s : State) (k : Nat) (v : Slot) : (s.setSlot k v).picFull = s.picFull := rfl
@[simp] theorem State.setSlot_pics (s : State) (k : Nat) (v : Slot) : (s.setSlot k v).pics = s.pics := rfl
@[simp] theorem State.setSlot_tracks (s : State) (k : Nat) (v : Slot) : (s.setSlot k v).tracks = s.tracks := rfl
@[simp] theorem State.setSlot_audit (s : State) (k : Nat) (v : Slot) : (s.setSlot k v).audit = s.audit := rfl
@[simp] theorem State.setSlot_softRetired (s : State) (k : Nat) (v : Slot) : (s.setSlot k v).softRetired = s.softRetired := rfl
@[simp] theorem State.setSlot_graphEpoch (s : State) (k : Nat) (v : Slot) : (s.setSlot k v).graphEpoch = s.graphEpoch := rfl
@[simp] theorem State.setSlot_twin (s : State) (k : Nat) (v : Slot) : (s.setSlot k v).twin = s.twin := rfl
@[simp] theorem State.setSlot_ruleEpoch (s : State) (k : Nat) (v : Slot) : (s.setSlot k v).ruleEpoch = s.ruleEpoch := rfl
@[simp] theorem State.setSlot_ruleCopy (s : State) (k : Nat) (v : Slot) : (s.setSlot k v).ruleCopy = s.ruleCopy := rfl
@[simp] theorem State.setSlot_gw (s : State) (k : Nat) (v : Slot) : (s.setSlot k v).gw = s.gw := rfl
@[simp] theorem State.setSlot_eng (s : State) (k : Nat) (v : Slot) : (s.setSlot k v).eng = s.eng := rfl
@[simp] theorem State.setSlot_loader (s : State) (k : Nat) (v : Slot) : (s.setSlot k v).loader = s.loader := rfl
@[simp] theorem State.setSlot_hif (s : State) (k : Nat) (v : Slot) : (s.setSlot k v).hif = s.hif := rfl
@[simp] theorem State.setSlot_ret (s : State) (k : Nat) (v : Slot) : (s.setSlot k v).ret = s.ret := rfl
@[simp] theorem State.setSlot_chk (s : State) (k : Nat) (v : Slot) : (s.setSlot k v).chk = s.chk := rfl
@[simp] theorem State.setSlot_bug (s : State) (k : Nat) (v : Slot) : (s.setSlot k v).bug = s.bug := rfl
@[simp] theorem State.setSlot_upd (s : State) (k : Nat) (v : Slot) : (s.setSlot k v).upd = s.upd := rfl
@[simp] theorem State.setSlot_clk (s : State) (k : Nat) (v : Slot) : (s.setSlot k v).clk = s.clk := rfl
@[simp] theorem State.setSlot_lim (s : State) (k : Nat) (v : Slot) : (s.setSlot k v).lim = s.lim := rfl
@[simp] theorem State.setSlot_gpioHold (s : State) (k : Nat) (v : Slot) : (s.setSlot k v).gpioHold = s.gpioHold := rfl
@[simp] theorem State.setSlot_snapAt (s : State) (k : Nat) (v : Slot) : (s.setSlot k v).snapAt = s.snapAt := rfl
@[simp] theorem State.setSlot_out (s : State) (k : Nat) (v : Slot) : (s.setSlot k v).out = s.out := rfl
@[simp] theorem State.setSlot_free (s : State) (k : Nat) (v : Slot) : (s.setSlot k v).free = s.free := rfl

/-! ### setTap -/

@[simp] theorem State.setTap_pending (s : State) (t : Nat) (v : Tap) : (s.setTap t v).pending = s.pending := rfl
@[simp] theorem State.setTap_part (s : State) (t : Nat) (v : Tap) : (s.setTap t v).part = s.part := rfl
@[simp] theorem State.setTap_dOn (s : State) (t : Nat) (v : Tap) : (s.setTap t v).dOn = s.dOn := rfl
@[simp] theorem State.setTap_regs (s : State) (t : Nat) (v : Tap) : (s.setTap t v).regs = s.regs := rfl
@[simp] theorem State.setTap_prep (s : State) (t : Nat) (v : Tap) : (s.setTap t v).prep = s.prep := rfl
@[simp] theorem State.setTap_ctrs (s : State) (t : Nat) (v : Tap) : (s.setTap t v).ctrs = s.ctrs := rfl
@[simp] theorem State.setTap_snap (s : State) (t : Nat) (v : Tap) : (s.setTap t v).snap = s.snap := rfl
@[simp] theorem State.setTap_hiLatch (s : State) (t : Nat) (v : Tap) : (s.setTap t v).hiLatch = s.hiLatch := rfl
@[simp] theorem State.setTap_time (s : State) (t : Nat) (v : Tap) : (s.setTap t v).time = s.time := rfl
@[simp] theorem State.setTap_ports (s : State) (t : Nat) (v : Tap) : (s.setTap t v).ports = s.ports := rfl
@[simp] theorem State.setTap_held (s : State) (t : Nat) (v : Tap) : (s.setTap t v).held = s.held := rfl
@[simp] theorem State.setTap_nextFrame (s : State) (t : Nat) (v : Tap) : (s.setTap t v).nextFrame = s.nextFrame := rfl
@[simp] theorem State.setTap_copies (s : State) (t : Nat) (v : Tap) : (s.setTap t v).copies = s.copies := rfl
@[simp] theorem State.setTap_nextCopy (s : State) (t : Nat) (v : Tap) : (s.setTap t v).nextCopy = s.nextCopy := rfl
@[simp] theorem State.setTap_queues (s : State) (t : Nat) (v : Tap) : (s.setTap t v).queues = s.queues := rfl
@[simp] theorem State.setTap_picFull (s : State) (t : Nat) (v : Tap) : (s.setTap t v).picFull = s.picFull := rfl
@[simp] theorem State.setTap_pics (s : State) (t : Nat) (v : Tap) : (s.setTap t v).pics = s.pics := rfl
@[simp] theorem State.setTap_tracks (s : State) (t : Nat) (v : Tap) : (s.setTap t v).tracks = s.tracks := rfl
@[simp] theorem State.setTap_audit (s : State) (t : Nat) (v : Tap) : (s.setTap t v).audit = s.audit := rfl
@[simp] theorem State.setTap_softRetired (s : State) (t : Nat) (v : Tap) : (s.setTap t v).softRetired = s.softRetired := rfl
@[simp] theorem State.setTap_graphEpoch (s : State) (t : Nat) (v : Tap) : (s.setTap t v).graphEpoch = s.graphEpoch := rfl
@[simp] theorem State.setTap_twin (s : State) (t : Nat) (v : Tap) : (s.setTap t v).twin = s.twin := rfl
@[simp] theorem State.setTap_ruleEpoch (s : State) (t : Nat) (v : Tap) : (s.setTap t v).ruleEpoch = s.ruleEpoch := rfl
@[simp] theorem State.setTap_ruleCopy (s : State) (t : Nat) (v : Tap) : (s.setTap t v).ruleCopy = s.ruleCopy := rfl
@[simp] theorem State.setTap_gw (s : State) (t : Nat) (v : Tap) : (s.setTap t v).gw = s.gw := rfl
@[simp] theorem State.setTap_eng (s : State) (t : Nat) (v : Tap) : (s.setTap t v).eng = s.eng := rfl
@[simp] theorem State.setTap_loader (s : State) (t : Nat) (v : Tap) : (s.setTap t v).loader = s.loader := rfl
@[simp] theorem State.setTap_hif (s : State) (t : Nat) (v : Tap) : (s.setTap t v).hif = s.hif := rfl
@[simp] theorem State.setTap_cry (s : State) (t : Nat) (v : Tap) : (s.setTap t v).cry = s.cry := rfl
@[simp] theorem State.setTap_chk (s : State) (t : Nat) (v : Tap) : (s.setTap t v).chk = s.chk := rfl
@[simp] theorem State.setTap_bug (s : State) (t : Nat) (v : Tap) : (s.setTap t v).bug = s.bug := rfl
@[simp] theorem State.setTap_upd (s : State) (t : Nat) (v : Tap) : (s.setTap t v).upd = s.upd := rfl
@[simp] theorem State.setTap_clk (s : State) (t : Nat) (v : Tap) : (s.setTap t v).clk = s.clk := rfl
@[simp] theorem State.setTap_lim (s : State) (t : Nat) (v : Tap) : (s.setTap t v).lim = s.lim := rfl
@[simp] theorem State.setTap_gpioHold (s : State) (t : Nat) (v : Tap) : (s.setTap t v).gpioHold = s.gpioHold := rfl
@[simp] theorem State.setTap_snapAt (s : State) (t : Nat) (v : Tap) : (s.setTap t v).snapAt = s.snapAt := rfl
@[simp] theorem State.setTap_out (s : State) (t : Nat) (v : Tap) : (s.setTap t v).out = s.out := rfl
@[simp] theorem State.setTap_free (s : State) (t : Nat) (v : Tap) : (s.setTap t v).free = s.free := rfl

/-! ### setHeld -/

@[simp] theorem State.setHeld_pending (s : State) (h : Held) : (s.setHeld h).pending = s.pending := rfl
@[simp] theorem State.setHeld_part (s : State) (h : Held) : (s.setHeld h).part = s.part := rfl
@[simp] theorem State.setHeld_dOn (s : State) (h : Held) : (s.setHeld h).dOn = s.dOn := rfl
@[simp] theorem State.setHeld_regs (s : State) (h : Held) : (s.setHeld h).regs = s.regs := rfl
@[simp] theorem State.setHeld_prep (s : State) (h : Held) : (s.setHeld h).prep = s.prep := rfl
@[simp] theorem State.setHeld_ctrs (s : State) (h : Held) : (s.setHeld h).ctrs = s.ctrs := rfl
@[simp] theorem State.setHeld_snap (s : State) (h : Held) : (s.setHeld h).snap = s.snap := rfl
@[simp] theorem State.setHeld_hiLatch (s : State) (h : Held) : (s.setHeld h).hiLatch = s.hiLatch := rfl
@[simp] theorem State.setHeld_time (s : State) (h : Held) : (s.setHeld h).time = s.time := rfl
@[simp] theorem State.setHeld_ports (s : State) (h : Held) : (s.setHeld h).ports = s.ports := rfl
@[simp] theorem State.setHeld_nextFrame (s : State) (h : Held) : (s.setHeld h).nextFrame = s.nextFrame := rfl
@[simp] theorem State.setHeld_copies (s : State) (h : Held) : (s.setHeld h).copies = s.copies := rfl
@[simp] theorem State.setHeld_nextCopy (s : State) (h : Held) : (s.setHeld h).nextCopy = s.nextCopy := rfl
@[simp] theorem State.setHeld_queues (s : State) (h : Held) : (s.setHeld h).queues = s.queues := rfl
@[simp] theorem State.setHeld_picFull (s : State) (h : Held) : (s.setHeld h).picFull = s.picFull := rfl
@[simp] theorem State.setHeld_pics (s : State) (h : Held) : (s.setHeld h).pics = s.pics := rfl
@[simp] theorem State.setHeld_tracks (s : State) (h : Held) : (s.setHeld h).tracks = s.tracks := rfl
@[simp] theorem State.setHeld_audit (s : State) (h : Held) : (s.setHeld h).audit = s.audit := rfl
@[simp] theorem State.setHeld_softRetired (s : State) (h : Held) : (s.setHeld h).softRetired = s.softRetired := rfl
@[simp] theorem State.setHeld_graphEpoch (s : State) (h : Held) : (s.setHeld h).graphEpoch = s.graphEpoch := rfl
@[simp] theorem State.setHeld_twin (s : State) (h : Held) : (s.setHeld h).twin = s.twin := rfl
@[simp] theorem State.setHeld_ruleEpoch (s : State) (h : Held) : (s.setHeld h).ruleEpoch = s.ruleEpoch := rfl
@[simp] theorem State.setHeld_ruleCopy (s : State) (h : Held) : (s.setHeld h).ruleCopy = s.ruleCopy := rfl
@[simp] theorem State.setHeld_gw (s : State) (h : Held) : (s.setHeld h).gw = s.gw := rfl
@[simp] theorem State.setHeld_eng (s : State) (h : Held) : (s.setHeld h).eng = s.eng := rfl
@[simp] theorem State.setHeld_loader (s : State) (h : Held) : (s.setHeld h).loader = s.loader := rfl
@[simp] theorem State.setHeld_hif (s : State) (h : Held) : (s.setHeld h).hif = s.hif := rfl
@[simp] theorem State.setHeld_cry (s : State) (h : Held) : (s.setHeld h).cry = s.cry := rfl
@[simp] theorem State.setHeld_ret (s : State) (h : Held) : (s.setHeld h).ret = s.ret := rfl
@[simp] theorem State.setHeld_chk (s : State) (h : Held) : (s.setHeld h).chk = s.chk := rfl
@[simp] theorem State.setHeld_bug (s : State) (h : Held) : (s.setHeld h).bug = s.bug := rfl
@[simp] theorem State.setHeld_upd (s : State) (h : Held) : (s.setHeld h).upd = s.upd := rfl
@[simp] theorem State.setHeld_clk (s : State) (h : Held) : (s.setHeld h).clk = s.clk := rfl
@[simp] theorem State.setHeld_lim (s : State) (h : Held) : (s.setHeld h).lim = s.lim := rfl
@[simp] theorem State.setHeld_gpioHold (s : State) (h : Held) : (s.setHeld h).gpioHold = s.gpioHold := rfl
@[simp] theorem State.setHeld_snapAt (s : State) (h : Held) : (s.setHeld h).snapAt = s.snapAt := rfl
@[simp] theorem State.setHeld_out (s : State) (h : Held) : (s.setHeld h).out = s.out := rfl
@[simp] theorem State.setHeld_free (s : State) (h : Held) : (s.setHeld h).free = s.free := rfl

/-! ### dropHeld -/

@[simp] theorem State.dropHeld_pending (s : State) (f : Nat) : (s.dropHeld f).pending = s.pending := rfl
@[simp] theorem State.dropHeld_part (s : State) (f : Nat) : (s.dropHeld f).part = s.part := rfl
@[simp] theorem State.dropHeld_dOn (s : State) (f : Nat) : (s.dropHeld f).dOn = s.dOn := rfl
@[simp] theorem State.dropHeld_regs (s : State) (f : Nat) : (s.dropHeld f).regs = s.regs := rfl
@[simp] theorem State.dropHeld_prep (s : State) (f : Nat) : (s.dropHeld f).prep = s.prep := rfl
@[simp] theorem State.dropHeld_ctrs (s : State) (f : Nat) : (s.dropHeld f).ctrs = s.ctrs := rfl
@[simp] theorem State.dropHeld_snap (s : State) (f : Nat) : (s.dropHeld f).snap = s.snap := rfl
@[simp] theorem State.dropHeld_hiLatch (s : State) (f : Nat) : (s.dropHeld f).hiLatch = s.hiLatch := rfl
@[simp] theorem State.dropHeld_time (s : State) (f : Nat) : (s.dropHeld f).time = s.time := rfl
@[simp] theorem State.dropHeld_ports (s : State) (f : Nat) : (s.dropHeld f).ports = s.ports := rfl
@[simp] theorem State.dropHeld_nextFrame (s : State) (f : Nat) : (s.dropHeld f).nextFrame = s.nextFrame := rfl
@[simp] theorem State.dropHeld_copies (s : State) (f : Nat) : (s.dropHeld f).copies = s.copies := rfl
@[simp] theorem State.dropHeld_nextCopy (s : State) (f : Nat) : (s.dropHeld f).nextCopy = s.nextCopy := rfl
@[simp] theorem State.dropHeld_queues (s : State) (f : Nat) : (s.dropHeld f).queues = s.queues := rfl
@[simp] theorem State.dropHeld_picFull (s : State) (f : Nat) : (s.dropHeld f).picFull = s.picFull := rfl
@[simp] theorem State.dropHeld_pics (s : State) (f : Nat) : (s.dropHeld f).pics = s.pics := rfl
@[simp] theorem State.dropHeld_tracks (s : State) (f : Nat) : (s.dropHeld f).tracks = s.tracks := rfl
@[simp] theorem State.dropHeld_audit (s : State) (f : Nat) : (s.dropHeld f).audit = s.audit := rfl
@[simp] theorem State.dropHeld_softRetired (s : State) (f : Nat) : (s.dropHeld f).softRetired = s.softRetired := rfl
@[simp] theorem State.dropHeld_graphEpoch (s : State) (f : Nat) : (s.dropHeld f).graphEpoch = s.graphEpoch := rfl
@[simp] theorem State.dropHeld_twin (s : State) (f : Nat) : (s.dropHeld f).twin = s.twin := rfl
@[simp] theorem State.dropHeld_ruleEpoch (s : State) (f : Nat) : (s.dropHeld f).ruleEpoch = s.ruleEpoch := rfl
@[simp] theorem State.dropHeld_ruleCopy (s : State) (f : Nat) : (s.dropHeld f).ruleCopy = s.ruleCopy := rfl
@[simp] theorem State.dropHeld_gw (s : State) (f : Nat) : (s.dropHeld f).gw = s.gw := rfl
@[simp] theorem State.dropHeld_eng (s : State) (f : Nat) : (s.dropHeld f).eng = s.eng := rfl
@[simp] theorem State.dropHeld_loader (s : State) (f : Nat) : (s.dropHeld f).loader = s.loader := rfl
@[simp] theorem State.dropHeld_hif (s : State) (f : Nat) : (s.dropHeld f).hif = s.hif := rfl
@[simp] theorem State.dropHeld_cry (s : State) (f : Nat) : (s.dropHeld f).cry = s.cry := rfl
@[simp] theorem State.dropHeld_ret (s : State) (f : Nat) : (s.dropHeld f).ret = s.ret := rfl
@[simp] theorem State.dropHeld_chk (s : State) (f : Nat) : (s.dropHeld f).chk = s.chk := rfl
@[simp] theorem State.dropHeld_bug (s : State) (f : Nat) : (s.dropHeld f).bug = s.bug := rfl
@[simp] theorem State.dropHeld_upd (s : State) (f : Nat) : (s.dropHeld f).upd = s.upd := rfl
@[simp] theorem State.dropHeld_clk (s : State) (f : Nat) : (s.dropHeld f).clk = s.clk := rfl
@[simp] theorem State.dropHeld_lim (s : State) (f : Nat) : (s.dropHeld f).lim = s.lim := rfl
@[simp] theorem State.dropHeld_gpioHold (s : State) (f : Nat) : (s.dropHeld f).gpioHold = s.gpioHold := rfl
@[simp] theorem State.dropHeld_snapAt (s : State) (f : Nat) : (s.dropHeld f).snapAt = s.snapAt := rfl
@[simp] theorem State.dropHeld_out (s : State) (f : Nat) : (s.dropHeld f).out = s.out := rfl
@[simp] theorem State.dropHeld_free (s : State) (f : Nat) : (s.dropHeld f).free = s.free := rfl

/-! ### setCopy -/

@[simp] theorem State.setCopy_pending (s : State) (c : Copy) : (s.setCopy c).pending = s.pending := rfl
@[simp] theorem State.setCopy_part (s : State) (c : Copy) : (s.setCopy c).part = s.part := rfl
@[simp] theorem State.setCopy_dOn (s : State) (c : Copy) : (s.setCopy c).dOn = s.dOn := rfl
@[simp] theorem State.setCopy_regs (s : State) (c : Copy) : (s.setCopy c).regs = s.regs := rfl
@[simp] theorem State.setCopy_prep (s : State) (c : Copy) : (s.setCopy c).prep = s.prep := rfl
@[simp] theorem State.setCopy_ctrs (s : State) (c : Copy) : (s.setCopy c).ctrs = s.ctrs := rfl
@[simp] theorem State.setCopy_snap (s : State) (c : Copy) : (s.setCopy c).snap = s.snap := rfl
@[simp] theorem State.setCopy_hiLatch (s : State) (c : Copy) : (s.setCopy c).hiLatch = s.hiLatch := rfl
@[simp] theorem State.setCopy_time (s : State) (c : Copy) : (s.setCopy c).time = s.time := rfl
@[simp] theorem State.setCopy_ports (s : State) (c : Copy) : (s.setCopy c).ports = s.ports := rfl
@[simp] theorem State.setCopy_held (s : State) (c : Copy) : (s.setCopy c).held = s.held := rfl
@[simp] theorem State.setCopy_nextFrame (s : State) (c : Copy) : (s.setCopy c).nextFrame = s.nextFrame := rfl
@[simp] theorem State.setCopy_nextCopy (s : State) (c : Copy) : (s.setCopy c).nextCopy = s.nextCopy := rfl
@[simp] theorem State.setCopy_queues (s : State) (c : Copy) : (s.setCopy c).queues = s.queues := rfl
@[simp] theorem State.setCopy_picFull (s : State) (c : Copy) : (s.setCopy c).picFull = s.picFull := rfl
@[simp] theorem State.setCopy_pics (s : State) (c : Copy) : (s.setCopy c).pics = s.pics := rfl
@[simp] theorem State.setCopy_tracks (s : State) (c : Copy) : (s.setCopy c).tracks = s.tracks := rfl
@[simp] theorem State.setCopy_audit (s : State) (c : Copy) : (s.setCopy c).audit = s.audit := rfl
@[simp] theorem State.setCopy_softRetired (s : State) (c : Copy) : (s.setCopy c).softRetired = s.softRetired := rfl
@[simp] theorem State.setCopy_graphEpoch (s : State) (c : Copy) : (s.setCopy c).graphEpoch = s.graphEpoch := rfl
@[simp] theorem State.setCopy_twin (s : State) (c : Copy) : (s.setCopy c).twin = s.twin := rfl
@[simp] theorem State.setCopy_ruleEpoch (s : State) (c : Copy) : (s.setCopy c).ruleEpoch = s.ruleEpoch := rfl
@[simp] theorem State.setCopy_ruleCopy (s : State) (c : Copy) : (s.setCopy c).ruleCopy = s.ruleCopy := rfl
@[simp] theorem State.setCopy_gw (s : State) (c : Copy) : (s.setCopy c).gw = s.gw := rfl
@[simp] theorem State.setCopy_eng (s : State) (c : Copy) : (s.setCopy c).eng = s.eng := rfl
@[simp] theorem State.setCopy_loader (s : State) (c : Copy) : (s.setCopy c).loader = s.loader := rfl
@[simp] theorem State.setCopy_hif (s : State) (c : Copy) : (s.setCopy c).hif = s.hif := rfl
@[simp] theorem State.setCopy_cry (s : State) (c : Copy) : (s.setCopy c).cry = s.cry := rfl
@[simp] theorem State.setCopy_ret (s : State) (c : Copy) : (s.setCopy c).ret = s.ret := rfl
@[simp] theorem State.setCopy_chk (s : State) (c : Copy) : (s.setCopy c).chk = s.chk := rfl
@[simp] theorem State.setCopy_bug (s : State) (c : Copy) : (s.setCopy c).bug = s.bug := rfl
@[simp] theorem State.setCopy_upd (s : State) (c : Copy) : (s.setCopy c).upd = s.upd := rfl
@[simp] theorem State.setCopy_clk (s : State) (c : Copy) : (s.setCopy c).clk = s.clk := rfl
@[simp] theorem State.setCopy_lim (s : State) (c : Copy) : (s.setCopy c).lim = s.lim := rfl
@[simp] theorem State.setCopy_gpioHold (s : State) (c : Copy) : (s.setCopy c).gpioHold = s.gpioHold := rfl
@[simp] theorem State.setCopy_snapAt (s : State) (c : Copy) : (s.setCopy c).snapAt = s.snapAt := rfl
@[simp] theorem State.setCopy_out (s : State) (c : Copy) : (s.setCopy c).out = s.out := rfl
@[simp] theorem State.setCopy_free (s : State) (c : Copy) : (s.setCopy c).free = s.free := rfl

/-! ### dropCopy -/

@[simp] theorem State.dropCopy_pending (s : State) (k : Nat) : (s.dropCopy k).pending = s.pending := rfl
@[simp] theorem State.dropCopy_part (s : State) (k : Nat) : (s.dropCopy k).part = s.part := rfl
@[simp] theorem State.dropCopy_dOn (s : State) (k : Nat) : (s.dropCopy k).dOn = s.dOn := rfl
@[simp] theorem State.dropCopy_regs (s : State) (k : Nat) : (s.dropCopy k).regs = s.regs := rfl
@[simp] theorem State.dropCopy_prep (s : State) (k : Nat) : (s.dropCopy k).prep = s.prep := rfl
@[simp] theorem State.dropCopy_ctrs (s : State) (k : Nat) : (s.dropCopy k).ctrs = s.ctrs := rfl
@[simp] theorem State.dropCopy_snap (s : State) (k : Nat) : (s.dropCopy k).snap = s.snap := rfl
@[simp] theorem State.dropCopy_hiLatch (s : State) (k : Nat) : (s.dropCopy k).hiLatch = s.hiLatch := rfl
@[simp] theorem State.dropCopy_time (s : State) (k : Nat) : (s.dropCopy k).time = s.time := rfl
@[simp] theorem State.dropCopy_ports (s : State) (k : Nat) : (s.dropCopy k).ports = s.ports := rfl
@[simp] theorem State.dropCopy_held (s : State) (k : Nat) : (s.dropCopy k).held = s.held := rfl
@[simp] theorem State.dropCopy_nextFrame (s : State) (k : Nat) : (s.dropCopy k).nextFrame = s.nextFrame := rfl
@[simp] theorem State.dropCopy_nextCopy (s : State) (k : Nat) : (s.dropCopy k).nextCopy = s.nextCopy := rfl
@[simp] theorem State.dropCopy_queues (s : State) (k : Nat) : (s.dropCopy k).queues = s.queues := rfl
@[simp] theorem State.dropCopy_picFull (s : State) (k : Nat) : (s.dropCopy k).picFull = s.picFull := rfl
@[simp] theorem State.dropCopy_pics (s : State) (k : Nat) : (s.dropCopy k).pics = s.pics := rfl
@[simp] theorem State.dropCopy_tracks (s : State) (k : Nat) : (s.dropCopy k).tracks = s.tracks := rfl
@[simp] theorem State.dropCopy_audit (s : State) (k : Nat) : (s.dropCopy k).audit = s.audit := rfl
@[simp] theorem State.dropCopy_softRetired (s : State) (k : Nat) : (s.dropCopy k).softRetired = s.softRetired := rfl
@[simp] theorem State.dropCopy_graphEpoch (s : State) (k : Nat) : (s.dropCopy k).graphEpoch = s.graphEpoch := rfl
@[simp] theorem State.dropCopy_twin (s : State) (k : Nat) : (s.dropCopy k).twin = s.twin := rfl
@[simp] theorem State.dropCopy_ruleEpoch (s : State) (k : Nat) : (s.dropCopy k).ruleEpoch = s.ruleEpoch := rfl
@[simp] theorem State.dropCopy_ruleCopy (s : State) (k : Nat) : (s.dropCopy k).ruleCopy = s.ruleCopy := rfl
@[simp] theorem State.dropCopy_gw (s : State) (k : Nat) : (s.dropCopy k).gw = s.gw := rfl
@[simp] theorem State.dropCopy_eng (s : State) (k : Nat) : (s.dropCopy k).eng = s.eng := rfl
@[simp] theorem State.dropCopy_loader (s : State) (k : Nat) : (s.dropCopy k).loader = s.loader := rfl
@[simp] theorem State.dropCopy_hif (s : State) (k : Nat) : (s.dropCopy k).hif = s.hif := rfl
@[simp] theorem State.dropCopy_cry (s : State) (k : Nat) : (s.dropCopy k).cry = s.cry := rfl
@[simp] theorem State.dropCopy_ret (s : State) (k : Nat) : (s.dropCopy k).ret = s.ret := rfl
@[simp] theorem State.dropCopy_chk (s : State) (k : Nat) : (s.dropCopy k).chk = s.chk := rfl
@[simp] theorem State.dropCopy_bug (s : State) (k : Nat) : (s.dropCopy k).bug = s.bug := rfl
@[simp] theorem State.dropCopy_upd (s : State) (k : Nat) : (s.dropCopy k).upd = s.upd := rfl
@[simp] theorem State.dropCopy_clk (s : State) (k : Nat) : (s.dropCopy k).clk = s.clk := rfl
@[simp] theorem State.dropCopy_lim (s : State) (k : Nat) : (s.dropCopy k).lim = s.lim := rfl
@[simp] theorem State.dropCopy_gpioHold (s : State) (k : Nat) : (s.dropCopy k).gpioHold = s.gpioHold := rfl
@[simp] theorem State.dropCopy_snapAt (s : State) (k : Nat) : (s.dropCopy k).snapAt = s.snapAt := rfl
@[simp] theorem State.dropCopy_out (s : State) (k : Nat) : (s.dropCopy k).out = s.out := rfl
@[simp] theorem State.dropCopy_free (s : State) (k : Nat) : (s.dropCopy k).free = s.free := rfl

/-! ### quiet -/

@[simp] theorem State.quiet_pending (s : State)  : (s.quiet).pending = s.pending := rfl
@[simp] theorem State.quiet_part (s : State)  : (s.quiet).part = s.part := rfl
@[simp] theorem State.quiet_dOn (s : State)  : (s.quiet).dOn = s.dOn := rfl
@[simp] theorem State.quiet_regs (s : State)  : (s.quiet).regs = s.regs := rfl
@[simp] theorem State.quiet_prep (s : State)  : (s.quiet).prep = s.prep := rfl
@[simp] theorem State.quiet_ctrs (s : State)  : (s.quiet).ctrs = s.ctrs := rfl
@[simp] theorem State.quiet_snap (s : State)  : (s.quiet).snap = s.snap := rfl
@[simp] theorem State.quiet_hiLatch (s : State)  : (s.quiet).hiLatch = s.hiLatch := rfl
@[simp] theorem State.quiet_time (s : State)  : (s.quiet).time = s.time := rfl
@[simp] theorem State.quiet_ports (s : State)  : (s.quiet).ports = s.ports := rfl
@[simp] theorem State.quiet_held (s : State)  : (s.quiet).held = s.held := rfl
@[simp] theorem State.quiet_nextFrame (s : State)  : (s.quiet).nextFrame = s.nextFrame := rfl
@[simp] theorem State.quiet_copies (s : State)  : (s.quiet).copies = s.copies := rfl
@[simp] theorem State.quiet_nextCopy (s : State)  : (s.quiet).nextCopy = s.nextCopy := rfl
@[simp] theorem State.quiet_queues (s : State)  : (s.quiet).queues = s.queues := rfl
@[simp] theorem State.quiet_picFull (s : State)  : (s.quiet).picFull = s.picFull := rfl
@[simp] theorem State.quiet_pics (s : State)  : (s.quiet).pics = s.pics := rfl
@[simp] theorem State.quiet_tracks (s : State)  : (s.quiet).tracks = s.tracks := rfl
@[simp] theorem State.quiet_audit (s : State)  : (s.quiet).audit = s.audit := rfl
@[simp] theorem State.quiet_softRetired (s : State)  : (s.quiet).softRetired = s.softRetired := rfl
@[simp] theorem State.quiet_graphEpoch (s : State)  : (s.quiet).graphEpoch = s.graphEpoch := rfl
@[simp] theorem State.quiet_twin (s : State)  : (s.quiet).twin = s.twin := rfl
@[simp] theorem State.quiet_ruleEpoch (s : State)  : (s.quiet).ruleEpoch = s.ruleEpoch := rfl
@[simp] theorem State.quiet_ruleCopy (s : State)  : (s.quiet).ruleCopy = s.ruleCopy := rfl
@[simp] theorem State.quiet_gw (s : State)  : (s.quiet).gw = s.gw := rfl
@[simp] theorem State.quiet_eng (s : State)  : (s.quiet).eng = s.eng := rfl
@[simp] theorem State.quiet_loader (s : State)  : (s.quiet).loader = s.loader := rfl
@[simp] theorem State.quiet_hif (s : State)  : (s.quiet).hif = s.hif := rfl
@[simp] theorem State.quiet_cry (s : State)  : (s.quiet).cry = s.cry := rfl
@[simp] theorem State.quiet_ret (s : State)  : (s.quiet).ret = s.ret := rfl
@[simp] theorem State.quiet_chk (s : State)  : (s.quiet).chk = s.chk := rfl
@[simp] theorem State.quiet_bug (s : State)  : (s.quiet).bug = s.bug := rfl
@[simp] theorem State.quiet_upd (s : State)  : (s.quiet).upd = s.upd := rfl
@[simp] theorem State.quiet_clk (s : State)  : (s.quiet).clk = s.clk := rfl
@[simp] theorem State.quiet_lim (s : State)  : (s.quiet).lim = s.lim := rfl
@[simp] theorem State.quiet_gpioHold (s : State)  : (s.quiet).gpioHold = s.gpioHold := rfl
@[simp] theorem State.quiet_snapAt (s : State)  : (s.quiet).snapAt = s.snapAt := rfl
@[simp] theorem State.quiet_free (s : State)  : (s.quiet).free = s.free := rfl

/-! ### put -/

@[simp] theorem State.put_pending (s : State) (o : Output) : (s.put o).pending = s.pending := rfl
@[simp] theorem State.put_part (s : State) (o : Output) : (s.put o).part = s.part := rfl
@[simp] theorem State.put_dOn (s : State) (o : Output) : (s.put o).dOn = s.dOn := rfl
@[simp] theorem State.put_regs (s : State) (o : Output) : (s.put o).regs = s.regs := rfl
@[simp] theorem State.put_prep (s : State) (o : Output) : (s.put o).prep = s.prep := rfl
@[simp] theorem State.put_ctrs (s : State) (o : Output) : (s.put o).ctrs = s.ctrs := rfl
@[simp] theorem State.put_snap (s : State) (o : Output) : (s.put o).snap = s.snap := rfl
@[simp] theorem State.put_hiLatch (s : State) (o : Output) : (s.put o).hiLatch = s.hiLatch := rfl
@[simp] theorem State.put_time (s : State) (o : Output) : (s.put o).time = s.time := rfl
@[simp] theorem State.put_ports (s : State) (o : Output) : (s.put o).ports = s.ports := rfl
@[simp] theorem State.put_held (s : State) (o : Output) : (s.put o).held = s.held := rfl
@[simp] theorem State.put_nextFrame (s : State) (o : Output) : (s.put o).nextFrame = s.nextFrame := rfl
@[simp] theorem State.put_copies (s : State) (o : Output) : (s.put o).copies = s.copies := rfl
@[simp] theorem State.put_nextCopy (s : State) (o : Output) : (s.put o).nextCopy = s.nextCopy := rfl
@[simp] theorem State.put_queues (s : State) (o : Output) : (s.put o).queues = s.queues := rfl
@[simp] theorem State.put_picFull (s : State) (o : Output) : (s.put o).picFull = s.picFull := rfl
@[simp] theorem State.put_pics (s : State) (o : Output) : (s.put o).pics = s.pics := rfl
@[simp] theorem State.put_tracks (s : State) (o : Output) : (s.put o).tracks = s.tracks := rfl
@[simp] theorem State.put_audit (s : State) (o : Output) : (s.put o).audit = s.audit := rfl
@[simp] theorem State.put_softRetired (s : State) (o : Output) : (s.put o).softRetired = s.softRetired := rfl
@[simp] theorem State.put_graphEpoch (s : State) (o : Output) : (s.put o).graphEpoch = s.graphEpoch := rfl
@[simp] theorem State.put_twin (s : State) (o : Output) : (s.put o).twin = s.twin := rfl
@[simp] theorem State.put_ruleEpoch (s : State) (o : Output) : (s.put o).ruleEpoch = s.ruleEpoch := rfl
@[simp] theorem State.put_ruleCopy (s : State) (o : Output) : (s.put o).ruleCopy = s.ruleCopy := rfl
@[simp] theorem State.put_gw (s : State) (o : Output) : (s.put o).gw = s.gw := rfl
@[simp] theorem State.put_eng (s : State) (o : Output) : (s.put o).eng = s.eng := rfl
@[simp] theorem State.put_loader (s : State) (o : Output) : (s.put o).loader = s.loader := rfl
@[simp] theorem State.put_hif (s : State) (o : Output) : (s.put o).hif = s.hif := rfl
@[simp] theorem State.put_cry (s : State) (o : Output) : (s.put o).cry = s.cry := rfl
@[simp] theorem State.put_ret (s : State) (o : Output) : (s.put o).ret = s.ret := rfl
@[simp] theorem State.put_chk (s : State) (o : Output) : (s.put o).chk = s.chk := rfl
@[simp] theorem State.put_bug (s : State) (o : Output) : (s.put o).bug = s.bug := rfl
@[simp] theorem State.put_upd (s : State) (o : Output) : (s.put o).upd = s.upd := rfl
@[simp] theorem State.put_clk (s : State) (o : Output) : (s.put o).clk = s.clk := rfl
@[simp] theorem State.put_lim (s : State) (o : Output) : (s.put o).lim = s.lim := rfl
@[simp] theorem State.put_gpioHold (s : State) (o : Output) : (s.put o).gpioHold = s.gpioHold := rfl
@[simp] theorem State.put_snapAt (s : State) (o : Output) : (s.put o).snapAt = s.snapAt := rfl
@[simp] theorem State.put_free (s : State) (o : Output) : (s.put o).free = s.free := rfl

/-! ### puts -/

@[simp] theorem State.puts_pending (s : State) (l : List Output) : (s.puts l).pending = s.pending := rfl
@[simp] theorem State.puts_part (s : State) (l : List Output) : (s.puts l).part = s.part := rfl
@[simp] theorem State.puts_dOn (s : State) (l : List Output) : (s.puts l).dOn = s.dOn := rfl
@[simp] theorem State.puts_regs (s : State) (l : List Output) : (s.puts l).regs = s.regs := rfl
@[simp] theorem State.puts_prep (s : State) (l : List Output) : (s.puts l).prep = s.prep := rfl
@[simp] theorem State.puts_ctrs (s : State) (l : List Output) : (s.puts l).ctrs = s.ctrs := rfl
@[simp] theorem State.puts_snap (s : State) (l : List Output) : (s.puts l).snap = s.snap := rfl
@[simp] theorem State.puts_hiLatch (s : State) (l : List Output) : (s.puts l).hiLatch = s.hiLatch := rfl
@[simp] theorem State.puts_time (s : State) (l : List Output) : (s.puts l).time = s.time := rfl
@[simp] theorem State.puts_ports (s : State) (l : List Output) : (s.puts l).ports = s.ports := rfl
@[simp] theorem State.puts_held (s : State) (l : List Output) : (s.puts l).held = s.held := rfl
@[simp] theorem State.puts_nextFrame (s : State) (l : List Output) : (s.puts l).nextFrame = s.nextFrame := rfl
@[simp] theorem State.puts_copies (s : State) (l : List Output) : (s.puts l).copies = s.copies := rfl
@[simp] theorem State.puts_nextCopy (s : State) (l : List Output) : (s.puts l).nextCopy = s.nextCopy := rfl
@[simp] theorem State.puts_queues (s : State) (l : List Output) : (s.puts l).queues = s.queues := rfl
@[simp] theorem State.puts_picFull (s : State) (l : List Output) : (s.puts l).picFull = s.picFull := rfl
@[simp] theorem State.puts_pics (s : State) (l : List Output) : (s.puts l).pics = s.pics := rfl
@[simp] theorem State.puts_tracks (s : State) (l : List Output) : (s.puts l).tracks = s.tracks := rfl
@[simp] theorem State.puts_audit (s : State) (l : List Output) : (s.puts l).audit = s.audit := rfl
@[simp] theorem State.puts_softRetired (s : State) (l : List Output) : (s.puts l).softRetired = s.softRetired := rfl
@[simp] theorem State.puts_graphEpoch (s : State) (l : List Output) : (s.puts l).graphEpoch = s.graphEpoch := rfl
@[simp] theorem State.puts_twin (s : State) (l : List Output) : (s.puts l).twin = s.twin := rfl
@[simp] theorem State.puts_ruleEpoch (s : State) (l : List Output) : (s.puts l).ruleEpoch = s.ruleEpoch := rfl
@[simp] theorem State.puts_ruleCopy (s : State) (l : List Output) : (s.puts l).ruleCopy = s.ruleCopy := rfl
@[simp] theorem State.puts_gw (s : State) (l : List Output) : (s.puts l).gw = s.gw := rfl
@[simp] theorem State.puts_eng (s : State) (l : List Output) : (s.puts l).eng = s.eng := rfl
@[simp] theorem State.puts_loader (s : State) (l : List Output) : (s.puts l).loader = s.loader := rfl
@[simp] theorem State.puts_hif (s : State) (l : List Output) : (s.puts l).hif = s.hif := rfl
@[simp] theorem State.puts_cry (s : State) (l : List Output) : (s.puts l).cry = s.cry := rfl
@[simp] theorem State.puts_ret (s : State) (l : List Output) : (s.puts l).ret = s.ret := rfl
@[simp] theorem State.puts_chk (s : State) (l : List Output) : (s.puts l).chk = s.chk := rfl
@[simp] theorem State.puts_bug (s : State) (l : List Output) : (s.puts l).bug = s.bug := rfl
@[simp] theorem State.puts_upd (s : State) (l : List Output) : (s.puts l).upd = s.upd := rfl
@[simp] theorem State.puts_clk (s : State) (l : List Output) : (s.puts l).clk = s.clk := rfl
@[simp] theorem State.puts_lim (s : State) (l : List Output) : (s.puts l).lim = s.lim := rfl
@[simp] theorem State.puts_gpioHold (s : State) (l : List Output) : (s.puts l).gpioHold = s.gpioHold := rfl
@[simp] theorem State.puts_snapAt (s : State) (l : List Output) : (s.puts l).snapAt = s.snapAt := rfl
@[simp] theorem State.puts_free (s : State) (l : List Output) : (s.puts l).free = s.free := rfl

/-! ### bump -/

@[simp] theorem State.bump_pending (s : State) (c : Ctr) (n : Nat) : (s.bump c n).pending = s.pending := rfl
@[simp] theorem State.bump_part (s : State) (c : Ctr) (n : Nat) : (s.bump c n).part = s.part := rfl
@[simp] theorem State.bump_dOn (s : State) (c : Ctr) (n : Nat) : (s.bump c n).dOn = s.dOn := rfl
@[simp] theorem State.bump_regs (s : State) (c : Ctr) (n : Nat) : (s.bump c n).regs = s.regs := rfl
@[simp] theorem State.bump_prep (s : State) (c : Ctr) (n : Nat) : (s.bump c n).prep = s.prep := rfl
@[simp] theorem State.bump_snap (s : State) (c : Ctr) (n : Nat) : (s.bump c n).snap = s.snap := rfl
@[simp] theorem State.bump_hiLatch (s : State) (c : Ctr) (n : Nat) : (s.bump c n).hiLatch = s.hiLatch := rfl
@[simp] theorem State.bump_time (s : State) (c : Ctr) (n : Nat) : (s.bump c n).time = s.time := rfl
@[simp] theorem State.bump_ports (s : State) (c : Ctr) (n : Nat) : (s.bump c n).ports = s.ports := rfl
@[simp] theorem State.bump_held (s : State) (c : Ctr) (n : Nat) : (s.bump c n).held = s.held := rfl
@[simp] theorem State.bump_nextFrame (s : State) (c : Ctr) (n : Nat) : (s.bump c n).nextFrame = s.nextFrame := rfl
@[simp] theorem State.bump_copies (s : State) (c : Ctr) (n : Nat) : (s.bump c n).copies = s.copies := rfl
@[simp] theorem State.bump_nextCopy (s : State) (c : Ctr) (n : Nat) : (s.bump c n).nextCopy = s.nextCopy := rfl
@[simp] theorem State.bump_queues (s : State) (c : Ctr) (n : Nat) : (s.bump c n).queues = s.queues := rfl
@[simp] theorem State.bump_picFull (s : State) (c : Ctr) (n : Nat) : (s.bump c n).picFull = s.picFull := rfl
@[simp] theorem State.bump_pics (s : State) (c : Ctr) (n : Nat) : (s.bump c n).pics = s.pics := rfl
@[simp] theorem State.bump_tracks (s : State) (c : Ctr) (n : Nat) : (s.bump c n).tracks = s.tracks := rfl
@[simp] theorem State.bump_audit (s : State) (c : Ctr) (n : Nat) : (s.bump c n).audit = s.audit := rfl
@[simp] theorem State.bump_softRetired (s : State) (c : Ctr) (n : Nat) : (s.bump c n).softRetired = s.softRetired := rfl
@[simp] theorem State.bump_graphEpoch (s : State) (c : Ctr) (n : Nat) : (s.bump c n).graphEpoch = s.graphEpoch := rfl
@[simp] theorem State.bump_twin (s : State) (c : Ctr) (n : Nat) : (s.bump c n).twin = s.twin := rfl
@[simp] theorem State.bump_ruleEpoch (s : State) (c : Ctr) (n : Nat) : (s.bump c n).ruleEpoch = s.ruleEpoch := rfl
@[simp] theorem State.bump_ruleCopy (s : State) (c : Ctr) (n : Nat) : (s.bump c n).ruleCopy = s.ruleCopy := rfl
@[simp] theorem State.bump_gw (s : State) (c : Ctr) (n : Nat) : (s.bump c n).gw = s.gw := rfl
@[simp] theorem State.bump_eng (s : State) (c : Ctr) (n : Nat) : (s.bump c n).eng = s.eng := rfl
@[simp] theorem State.bump_loader (s : State) (c : Ctr) (n : Nat) : (s.bump c n).loader = s.loader := rfl
@[simp] theorem State.bump_hif (s : State) (c : Ctr) (n : Nat) : (s.bump c n).hif = s.hif := rfl
@[simp] theorem State.bump_cry (s : State) (c : Ctr) (n : Nat) : (s.bump c n).cry = s.cry := rfl
@[simp] theorem State.bump_ret (s : State) (c : Ctr) (n : Nat) : (s.bump c n).ret = s.ret := rfl
@[simp] theorem State.bump_chk (s : State) (c : Ctr) (n : Nat) : (s.bump c n).chk = s.chk := rfl
@[simp] theorem State.bump_bug (s : State) (c : Ctr) (n : Nat) : (s.bump c n).bug = s.bug := rfl
@[simp] theorem State.bump_upd (s : State) (c : Ctr) (n : Nat) : (s.bump c n).upd = s.upd := rfl
@[simp] theorem State.bump_clk (s : State) (c : Ctr) (n : Nat) : (s.bump c n).clk = s.clk := rfl
@[simp] theorem State.bump_lim (s : State) (c : Ctr) (n : Nat) : (s.bump c n).lim = s.lim := rfl
@[simp] theorem State.bump_gpioHold (s : State) (c : Ctr) (n : Nat) : (s.bump c n).gpioHold = s.gpioHold := rfl
@[simp] theorem State.bump_snapAt (s : State) (c : Ctr) (n : Nat) : (s.bump c n).snapAt = s.snapAt := rfl
@[simp] theorem State.bump_out (s : State) (c : Ctr) (n : Nat) : (s.bump c n).out = s.out := rfl
@[simp] theorem State.bump_free (s : State) (c : Ctr) (n : Nat) : (s.bump c n).free = s.free := rfl

/-! ### pend -/

@[simp] theorem State.pend_pending (s : State) (v : Nat) : (s.pend v).pending = s.pending := rfl
@[simp] theorem State.pend_part (s : State) (v : Nat) : (s.pend v).part = s.part := rfl
@[simp] theorem State.pend_dOn (s : State) (v : Nat) : (s.pend v).dOn = s.dOn := rfl
@[simp] theorem State.pend_regs (s : State) (v : Nat) : (s.pend v).regs = s.regs := rfl
@[simp] theorem State.pend_prep (s : State) (v : Nat) : (s.pend v).prep = s.prep := rfl
@[simp] theorem State.pend_ctrs (s : State) (v : Nat) : (s.pend v).ctrs = s.ctrs := rfl
@[simp] theorem State.pend_snap (s : State) (v : Nat) : (s.pend v).snap = s.snap := rfl
@[simp] theorem State.pend_hiLatch (s : State) (v : Nat) : (s.pend v).hiLatch = s.hiLatch := rfl
@[simp] theorem State.pend_time (s : State) (v : Nat) : (s.pend v).time = s.time := rfl
@[simp] theorem State.pend_ports (s : State) (v : Nat) : (s.pend v).ports = s.ports := rfl
@[simp] theorem State.pend_held (s : State) (v : Nat) : (s.pend v).held = s.held := rfl
@[simp] theorem State.pend_nextFrame (s : State) (v : Nat) : (s.pend v).nextFrame = s.nextFrame := rfl
@[simp] theorem State.pend_copies (s : State) (v : Nat) : (s.pend v).copies = s.copies := rfl
@[simp] theorem State.pend_nextCopy (s : State) (v : Nat) : (s.pend v).nextCopy = s.nextCopy := rfl
@[simp] theorem State.pend_queues (s : State) (v : Nat) : (s.pend v).queues = s.queues := rfl
@[simp] theorem State.pend_picFull (s : State) (v : Nat) : (s.pend v).picFull = s.picFull := rfl
@[simp] theorem State.pend_pics (s : State) (v : Nat) : (s.pend v).pics = s.pics := rfl
@[simp] theorem State.pend_tracks (s : State) (v : Nat) : (s.pend v).tracks = s.tracks := rfl
@[simp] theorem State.pend_audit (s : State) (v : Nat) : (s.pend v).audit = s.audit := rfl
@[simp] theorem State.pend_softRetired (s : State) (v : Nat) : (s.pend v).softRetired = s.softRetired := rfl
@[simp] theorem State.pend_graphEpoch (s : State) (v : Nat) : (s.pend v).graphEpoch = s.graphEpoch := rfl
@[simp] theorem State.pend_twin (s : State) (v : Nat) : (s.pend v).twin = s.twin := rfl
@[simp] theorem State.pend_ruleEpoch (s : State) (v : Nat) : (s.pend v).ruleEpoch = s.ruleEpoch := rfl
@[simp] theorem State.pend_ruleCopy (s : State) (v : Nat) : (s.pend v).ruleCopy = s.ruleCopy := rfl
@[simp] theorem State.pend_gw (s : State) (v : Nat) : (s.pend v).gw = s.gw := rfl
@[simp] theorem State.pend_eng (s : State) (v : Nat) : (s.pend v).eng = s.eng := rfl
@[simp] theorem State.pend_loader (s : State) (v : Nat) : (s.pend v).loader = s.loader := rfl
@[simp] theorem State.pend_cry (s : State) (v : Nat) : (s.pend v).cry = s.cry := rfl
@[simp] theorem State.pend_ret (s : State) (v : Nat) : (s.pend v).ret = s.ret := rfl
@[simp] theorem State.pend_chk (s : State) (v : Nat) : (s.pend v).chk = s.chk := rfl
@[simp] theorem State.pend_bug (s : State) (v : Nat) : (s.pend v).bug = s.bug := rfl
@[simp] theorem State.pend_upd (s : State) (v : Nat) : (s.pend v).upd = s.upd := rfl
@[simp] theorem State.pend_clk (s : State) (v : Nat) : (s.pend v).clk = s.clk := rfl
@[simp] theorem State.pend_lim (s : State) (v : Nat) : (s.pend v).lim = s.lim := rfl
@[simp] theorem State.pend_gpioHold (s : State) (v : Nat) : (s.pend v).gpioHold = s.gpioHold := rfl
@[simp] theorem State.pend_snapAt (s : State) (v : Nat) : (s.pend v).snapAt = s.snapAt := rfl
@[simp] theorem State.pend_out (s : State) (v : Nat) : (s.pend v).out = s.out := rfl
@[simp] theorem State.pend_free (s : State) (v : Nat) : (s.pend v).free = s.free := rfl

/-! ### emit -/

@[simp] theorem State.emit_pending (s : State) (code src detail : Nat) (args : List Word) : (s.emit code src detail args).pending = s.pending := rfl
@[simp] theorem State.emit_part (s : State) (code src detail : Nat) (args : List Word) : (s.emit code src detail args).part = s.part := rfl
@[simp] theorem State.emit_dOn (s : State) (code src detail : Nat) (args : List Word) : (s.emit code src detail args).dOn = s.dOn := rfl
@[simp] theorem State.emit_regs (s : State) (code src detail : Nat) (args : List Word) : (s.emit code src detail args).regs = s.regs := rfl
@[simp] theorem State.emit_prep (s : State) (code src detail : Nat) (args : List Word) : (s.emit code src detail args).prep = s.prep := rfl
@[simp] theorem State.emit_ctrs (s : State) (code src detail : Nat) (args : List Word) : (s.emit code src detail args).ctrs = s.ctrs := rfl
@[simp] theorem State.emit_snap (s : State) (code src detail : Nat) (args : List Word) : (s.emit code src detail args).snap = s.snap := rfl
@[simp] theorem State.emit_hiLatch (s : State) (code src detail : Nat) (args : List Word) : (s.emit code src detail args).hiLatch = s.hiLatch := rfl
@[simp] theorem State.emit_time (s : State) (code src detail : Nat) (args : List Word) : (s.emit code src detail args).time = s.time := rfl
@[simp] theorem State.emit_ports (s : State) (code src detail : Nat) (args : List Word) : (s.emit code src detail args).ports = s.ports := rfl
@[simp] theorem State.emit_held (s : State) (code src detail : Nat) (args : List Word) : (s.emit code src detail args).held = s.held := rfl
@[simp] theorem State.emit_nextFrame (s : State) (code src detail : Nat) (args : List Word) : (s.emit code src detail args).nextFrame = s.nextFrame := rfl
@[simp] theorem State.emit_copies (s : State) (code src detail : Nat) (args : List Word) : (s.emit code src detail args).copies = s.copies := rfl
@[simp] theorem State.emit_nextCopy (s : State) (code src detail : Nat) (args : List Word) : (s.emit code src detail args).nextCopy = s.nextCopy := rfl
@[simp] theorem State.emit_queues (s : State) (code src detail : Nat) (args : List Word) : (s.emit code src detail args).queues = s.queues := rfl
@[simp] theorem State.emit_picFull (s : State) (code src detail : Nat) (args : List Word) : (s.emit code src detail args).picFull = s.picFull := rfl
@[simp] theorem State.emit_pics (s : State) (code src detail : Nat) (args : List Word) : (s.emit code src detail args).pics = s.pics := rfl
@[simp] theorem State.emit_tracks (s : State) (code src detail : Nat) (args : List Word) : (s.emit code src detail args).tracks = s.tracks := rfl
@[simp] theorem State.emit_audit (s : State) (code src detail : Nat) (args : List Word) : (s.emit code src detail args).audit = s.audit := rfl
@[simp] theorem State.emit_softRetired (s : State) (code src detail : Nat) (args : List Word) : (s.emit code src detail args).softRetired = s.softRetired := rfl
@[simp] theorem State.emit_graphEpoch (s : State) (code src detail : Nat) (args : List Word) : (s.emit code src detail args).graphEpoch = s.graphEpoch := rfl
@[simp] theorem State.emit_twin (s : State) (code src detail : Nat) (args : List Word) : (s.emit code src detail args).twin = s.twin := rfl
@[simp] theorem State.emit_ruleEpoch (s : State) (code src detail : Nat) (args : List Word) : (s.emit code src detail args).ruleEpoch = s.ruleEpoch := rfl
@[simp] theorem State.emit_ruleCopy (s : State) (code src detail : Nat) (args : List Word) : (s.emit code src detail args).ruleCopy = s.ruleCopy := rfl
@[simp] theorem State.emit_gw (s : State) (code src detail : Nat) (args : List Word) : (s.emit code src detail args).gw = s.gw := rfl
@[simp] theorem State.emit_eng (s : State) (code src detail : Nat) (args : List Word) : (s.emit code src detail args).eng = s.eng := rfl
@[simp] theorem State.emit_loader (s : State) (code src detail : Nat) (args : List Word) : (s.emit code src detail args).loader = s.loader := rfl
@[simp] theorem State.emit_cry (s : State) (code src detail : Nat) (args : List Word) : (s.emit code src detail args).cry = s.cry := rfl
@[simp] theorem State.emit_ret (s : State) (code src detail : Nat) (args : List Word) : (s.emit code src detail args).ret = s.ret := rfl
@[simp] theorem State.emit_chk (s : State) (code src detail : Nat) (args : List Word) : (s.emit code src detail args).chk = s.chk := rfl
@[simp] theorem State.emit_bug (s : State) (code src detail : Nat) (args : List Word) : (s.emit code src detail args).bug = s.bug := rfl
@[simp] theorem State.emit_upd (s : State) (code src detail : Nat) (args : List Word) : (s.emit code src detail args).upd = s.upd := rfl
@[simp] theorem State.emit_clk (s : State) (code src detail : Nat) (args : List Word) : (s.emit code src detail args).clk = s.clk := rfl
@[simp] theorem State.emit_lim (s : State) (code src detail : Nat) (args : List Word) : (s.emit code src detail args).lim = s.lim := rfl
@[simp] theorem State.emit_gpioHold (s : State) (code src detail : Nat) (args : List Word) : (s.emit code src detail args).gpioHold = s.gpioHold := rfl
@[simp] theorem State.emit_snapAt (s : State) (code src detail : Nat) (args : List Word) : (s.emit code src detail args).snapAt = s.snapAt := rfl
@[simp] theorem State.emit_out (s : State) (code src detail : Nat) (args : List Word) : (s.emit code src detail args).out = s.out := rfl
@[simp] theorem State.emit_free (s : State) (code src detail : Nat) (args : List Word) : (s.emit code src detail args).free = s.free := rfl

/-! ### flag, emitIf -/

@[simp] theorem State.flag_pending (s : State) (ev en : Reg) (k i : Nat) : (s.flag ev en k i).pending = s.pending := by
  unfold State.flag; dsimp only; split <;> rfl
@[simp] theorem State.emitIf_pending (s : State) (b : Bool) (c x d : Nat) (l : List Word) : (s.emitIf b c x d l).pending = s.pending := by
  unfold State.emitIf; split <;> rfl
@[simp] theorem State.flag_part (s : State) (ev en : Reg) (k i : Nat) : (s.flag ev en k i).part = s.part := by
  unfold State.flag; dsimp only; split <;> rfl
@[simp] theorem State.emitIf_part (s : State) (b : Bool) (c x d : Nat) (l : List Word) : (s.emitIf b c x d l).part = s.part := by
  unfold State.emitIf; split <;> rfl
@[simp] theorem State.flag_dOn (s : State) (ev en : Reg) (k i : Nat) : (s.flag ev en k i).dOn = s.dOn := by
  unfold State.flag; dsimp only; split <;> rfl
@[simp] theorem State.emitIf_dOn (s : State) (b : Bool) (c x d : Nat) (l : List Word) : (s.emitIf b c x d l).dOn = s.dOn := by
  unfold State.emitIf; split <;> rfl
@[simp] theorem State.emitIf_regs (s : State) (b : Bool) (c x d : Nat) (l : List Word) : (s.emitIf b c x d l).regs = s.regs := by
  unfold State.emitIf; split <;> rfl
@[simp] theorem State.flag_prep (s : State) (ev en : Reg) (k i : Nat) : (s.flag ev en k i).prep = s.prep := by
  unfold State.flag; dsimp only; split <;> rfl
@[simp] theorem State.emitIf_prep (s : State) (b : Bool) (c x d : Nat) (l : List Word) : (s.emitIf b c x d l).prep = s.prep := by
  unfold State.emitIf; split <;> rfl
@[simp] theorem State.flag_ctrs (s : State) (ev en : Reg) (k i : Nat) : (s.flag ev en k i).ctrs = s.ctrs := by
  unfold State.flag; dsimp only; split <;> rfl
@[simp] theorem State.emitIf_ctrs (s : State) (b : Bool) (c x d : Nat) (l : List Word) : (s.emitIf b c x d l).ctrs = s.ctrs := by
  unfold State.emitIf; split <;> rfl
@[simp] theorem State.flag_snap (s : State) (ev en : Reg) (k i : Nat) : (s.flag ev en k i).snap = s.snap := by
  unfold State.flag; dsimp only; split <;> rfl
@[simp] theorem State.emitIf_snap (s : State) (b : Bool) (c x d : Nat) (l : List Word) : (s.emitIf b c x d l).snap = s.snap := by
  unfold State.emitIf; split <;> rfl
@[simp] theorem State.flag_hiLatch (s : State) (ev en : Reg) (k i : Nat) : (s.flag ev en k i).hiLatch = s.hiLatch := by
  unfold State.flag; dsimp only; split <;> rfl
@[simp] theorem State.emitIf_hiLatch (s : State) (b : Bool) (c x d : Nat) (l : List Word) : (s.emitIf b c x d l).hiLatch = s.hiLatch := by
  unfold State.emitIf; split <;> rfl
@[simp] theorem State.flag_time (s : State) (ev en : Reg) (k i : Nat) : (s.flag ev en k i).time = s.time := by
  unfold State.flag; dsimp only; split <;> rfl
@[simp] theorem State.emitIf_time (s : State) (b : Bool) (c x d : Nat) (l : List Word) : (s.emitIf b c x d l).time = s.time := by
  unfold State.emitIf; split <;> rfl
@[simp] theorem State.flag_ports (s : State) (ev en : Reg) (k i : Nat) : (s.flag ev en k i).ports = s.ports := by
  unfold State.flag; dsimp only; split <;> rfl
@[simp] theorem State.emitIf_ports (s : State) (b : Bool) (c x d : Nat) (l : List Word) : (s.emitIf b c x d l).ports = s.ports := by
  unfold State.emitIf; split <;> rfl
@[simp] theorem State.flag_held (s : State) (ev en : Reg) (k i : Nat) : (s.flag ev en k i).held = s.held := by
  unfold State.flag; dsimp only; split <;> rfl
@[simp] theorem State.emitIf_held (s : State) (b : Bool) (c x d : Nat) (l : List Word) : (s.emitIf b c x d l).held = s.held := by
  unfold State.emitIf; split <;> rfl
@[simp] theorem State.flag_nextFrame (s : State) (ev en : Reg) (k i : Nat) : (s.flag ev en k i).nextFrame = s.nextFrame := by
  unfold State.flag; dsimp only; split <;> rfl
@[simp] theorem State.emitIf_nextFrame (s : State) (b : Bool) (c x d : Nat) (l : List Word) : (s.emitIf b c x d l).nextFrame = s.nextFrame := by
  unfold State.emitIf; split <;> rfl
@[simp] theorem State.flag_copies (s : State) (ev en : Reg) (k i : Nat) : (s.flag ev en k i).copies = s.copies := by
  unfold State.flag; dsimp only; split <;> rfl
@[simp] theorem State.emitIf_copies (s : State) (b : Bool) (c x d : Nat) (l : List Word) : (s.emitIf b c x d l).copies = s.copies := by
  unfold State.emitIf; split <;> rfl
@[simp] theorem State.flag_nextCopy (s : State) (ev en : Reg) (k i : Nat) : (s.flag ev en k i).nextCopy = s.nextCopy := by
  unfold State.flag; dsimp only; split <;> rfl
@[simp] theorem State.emitIf_nextCopy (s : State) (b : Bool) (c x d : Nat) (l : List Word) : (s.emitIf b c x d l).nextCopy = s.nextCopy := by
  unfold State.emitIf; split <;> rfl
@[simp] theorem State.flag_queues (s : State) (ev en : Reg) (k i : Nat) : (s.flag ev en k i).queues = s.queues := by
  unfold State.flag; dsimp only; split <;> rfl
@[simp] theorem State.emitIf_queues (s : State) (b : Bool) (c x d : Nat) (l : List Word) : (s.emitIf b c x d l).queues = s.queues := by
  unfold State.emitIf; split <;> rfl
@[simp] theorem State.flag_picFull (s : State) (ev en : Reg) (k i : Nat) : (s.flag ev en k i).picFull = s.picFull := by
  unfold State.flag; dsimp only; split <;> rfl
@[simp] theorem State.emitIf_picFull (s : State) (b : Bool) (c x d : Nat) (l : List Word) : (s.emitIf b c x d l).picFull = s.picFull := by
  unfold State.emitIf; split <;> rfl
@[simp] theorem State.flag_pics (s : State) (ev en : Reg) (k i : Nat) : (s.flag ev en k i).pics = s.pics := by
  unfold State.flag; dsimp only; split <;> rfl
@[simp] theorem State.emitIf_pics (s : State) (b : Bool) (c x d : Nat) (l : List Word) : (s.emitIf b c x d l).pics = s.pics := by
  unfold State.emitIf; split <;> rfl
@[simp] theorem State.flag_tracks (s : State) (ev en : Reg) (k i : Nat) : (s.flag ev en k i).tracks = s.tracks := by
  unfold State.flag; dsimp only; split <;> rfl
@[simp] theorem State.emitIf_tracks (s : State) (b : Bool) (c x d : Nat) (l : List Word) : (s.emitIf b c x d l).tracks = s.tracks := by
  unfold State.emitIf; split <;> rfl
@[simp] theorem State.flag_audit (s : State) (ev en : Reg) (k i : Nat) : (s.flag ev en k i).audit = s.audit := by
  unfold State.flag; dsimp only; split <;> rfl
@[simp] theorem State.emitIf_audit (s : State) (b : Bool) (c x d : Nat) (l : List Word) : (s.emitIf b c x d l).audit = s.audit := by
  unfold State.emitIf; split <;> rfl
@[simp] theorem State.flag_softRetired (s : State) (ev en : Reg) (k i : Nat) : (s.flag ev en k i).softRetired = s.softRetired := by
  unfold State.flag; dsimp only; split <;> rfl
@[simp] theorem State.emitIf_softRetired (s : State) (b : Bool) (c x d : Nat) (l : List Word) : (s.emitIf b c x d l).softRetired = s.softRetired := by
  unfold State.emitIf; split <;> rfl
@[simp] theorem State.flag_graphEpoch (s : State) (ev en : Reg) (k i : Nat) : (s.flag ev en k i).graphEpoch = s.graphEpoch := by
  unfold State.flag; dsimp only; split <;> rfl
@[simp] theorem State.emitIf_graphEpoch (s : State) (b : Bool) (c x d : Nat) (l : List Word) : (s.emitIf b c x d l).graphEpoch = s.graphEpoch := by
  unfold State.emitIf; split <;> rfl
@[simp] theorem State.flag_twin (s : State) (ev en : Reg) (k i : Nat) : (s.flag ev en k i).twin = s.twin := by
  unfold State.flag; dsimp only; split <;> rfl
@[simp] theorem State.emitIf_twin (s : State) (b : Bool) (c x d : Nat) (l : List Word) : (s.emitIf b c x d l).twin = s.twin := by
  unfold State.emitIf; split <;> rfl
@[simp] theorem State.flag_ruleEpoch (s : State) (ev en : Reg) (k i : Nat) : (s.flag ev en k i).ruleEpoch = s.ruleEpoch := by
  unfold State.flag; dsimp only; split <;> rfl
@[simp] theorem State.emitIf_ruleEpoch (s : State) (b : Bool) (c x d : Nat) (l : List Word) : (s.emitIf b c x d l).ruleEpoch = s.ruleEpoch := by
  unfold State.emitIf; split <;> rfl
@[simp] theorem State.flag_ruleCopy (s : State) (ev en : Reg) (k i : Nat) : (s.flag ev en k i).ruleCopy = s.ruleCopy := by
  unfold State.flag; dsimp only; split <;> rfl
@[simp] theorem State.emitIf_ruleCopy (s : State) (b : Bool) (c x d : Nat) (l : List Word) : (s.emitIf b c x d l).ruleCopy = s.ruleCopy := by
  unfold State.emitIf; split <;> rfl
@[simp] theorem State.flag_gw (s : State) (ev en : Reg) (k i : Nat) : (s.flag ev en k i).gw = s.gw := by
  unfold State.flag; dsimp only; split <;> rfl
@[simp] theorem State.emitIf_gw (s : State) (b : Bool) (c x d : Nat) (l : List Word) : (s.emitIf b c x d l).gw = s.gw := by
  unfold State.emitIf; split <;> rfl
@[simp] theorem State.flag_eng (s : State) (ev en : Reg) (k i : Nat) : (s.flag ev en k i).eng = s.eng := by
  unfold State.flag; dsimp only; split <;> rfl
@[simp] theorem State.emitIf_eng (s : State) (b : Bool) (c x d : Nat) (l : List Word) : (s.emitIf b c x d l).eng = s.eng := by
  unfold State.emitIf; split <;> rfl
@[simp] theorem State.flag_loader (s : State) (ev en : Reg) (k i : Nat) : (s.flag ev en k i).loader = s.loader := by
  unfold State.flag; dsimp only; split <;> rfl
@[simp] theorem State.emitIf_loader (s : State) (b : Bool) (c x d : Nat) (l : List Word) : (s.emitIf b c x d l).loader = s.loader := by
  unfold State.emitIf; split <;> rfl
@[simp] theorem State.flag_cry (s : State) (ev en : Reg) (k i : Nat) : (s.flag ev en k i).cry = s.cry := by
  unfold State.flag; dsimp only; split <;> rfl
@[simp] theorem State.emitIf_cry (s : State) (b : Bool) (c x d : Nat) (l : List Word) : (s.emitIf b c x d l).cry = s.cry := by
  unfold State.emitIf; split <;> rfl
@[simp] theorem State.flag_ret (s : State) (ev en : Reg) (k i : Nat) : (s.flag ev en k i).ret = s.ret := by
  unfold State.flag; dsimp only; split <;> rfl
@[simp] theorem State.emitIf_ret (s : State) (b : Bool) (c x d : Nat) (l : List Word) : (s.emitIf b c x d l).ret = s.ret := by
  unfold State.emitIf; split <;> rfl
@[simp] theorem State.flag_chk (s : State) (ev en : Reg) (k i : Nat) : (s.flag ev en k i).chk = s.chk := by
  unfold State.flag; dsimp only; split <;> rfl
@[simp] theorem State.emitIf_chk (s : State) (b : Bool) (c x d : Nat) (l : List Word) : (s.emitIf b c x d l).chk = s.chk := by
  unfold State.emitIf; split <;> rfl
@[simp] theorem State.flag_bug (s : State) (ev en : Reg) (k i : Nat) : (s.flag ev en k i).bug = s.bug := by
  unfold State.flag; dsimp only; split <;> rfl
@[simp] theorem State.emitIf_bug (s : State) (b : Bool) (c x d : Nat) (l : List Word) : (s.emitIf b c x d l).bug = s.bug := by
  unfold State.emitIf; split <;> rfl
@[simp] theorem State.flag_upd (s : State) (ev en : Reg) (k i : Nat) : (s.flag ev en k i).upd = s.upd := by
  unfold State.flag; dsimp only; split <;> rfl
@[simp] theorem State.emitIf_upd (s : State) (b : Bool) (c x d : Nat) (l : List Word) : (s.emitIf b c x d l).upd = s.upd := by
  unfold State.emitIf; split <;> rfl
@[simp] theorem State.flag_clk (s : State) (ev en : Reg) (k i : Nat) : (s.flag ev en k i).clk = s.clk := by
  unfold State.flag; dsimp only; split <;> rfl
@[simp] theorem State.emitIf_clk (s : State) (b : Bool) (c x d : Nat) (l : List Word) : (s.emitIf b c x d l).clk = s.clk := by
  unfold State.emitIf; split <;> rfl
@[simp] theorem State.flag_lim (s : State) (ev en : Reg) (k i : Nat) : (s.flag ev en k i).lim = s.lim := by
  unfold State.flag; dsimp only; split <;> rfl
@[simp] theorem State.emitIf_lim (s : State) (b : Bool) (c x d : Nat) (l : List Word) : (s.emitIf b c x d l).lim = s.lim := by
  unfold State.emitIf; split <;> rfl
@[simp] theorem State.flag_gpioHold (s : State) (ev en : Reg) (k i : Nat) : (s.flag ev en k i).gpioHold = s.gpioHold := by
  unfold State.flag; dsimp only; split <;> rfl
@[simp] theorem State.emitIf_gpioHold (s : State) (b : Bool) (c x d : Nat) (l : List Word) : (s.emitIf b c x d l).gpioHold = s.gpioHold := by
  unfold State.emitIf; split <;> rfl
@[simp] theorem State.flag_snapAt (s : State) (ev en : Reg) (k i : Nat) : (s.flag ev en k i).snapAt = s.snapAt := by
  unfold State.flag; dsimp only; split <;> rfl
@[simp] theorem State.emitIf_snapAt (s : State) (b : Bool) (c x d : Nat) (l : List Word) : (s.emitIf b c x d l).snapAt = s.snapAt := by
  unfold State.emitIf; split <;> rfl
@[simp] theorem State.flag_out (s : State) (ev en : Reg) (k i : Nat) : (s.flag ev en k i).out = s.out := by
  unfold State.flag; dsimp only; split <;> rfl
@[simp] theorem State.emitIf_out (s : State) (b : Bool) (c x d : Nat) (l : List Word) : (s.emitIf b c x d l).out = s.out := by
  unfold State.emitIf; split <;> rfl
@[simp] theorem State.flag_free (s : State) (ev en : Reg) (k i : Nat) : (s.flag ev en k i).free = s.free := by
  unfold State.flag; dsimp only; split <;> rfl
@[simp] theorem State.emitIf_free (s : State) (b : Bool) (c x d : Nat) (l : List Word) : (s.emitIf b c x d l).free = s.free := by
  unfold State.emitIf; split <;> rfl

/-! ### What the updates write -/

@[simp] theorem State.port_setPort (s : State) (n : Nat) (p : PortSt) : (s.setPort n p).port n = p := by
  simp [State.port, State.setPort]
theorem State.port_setPort_ne (s : State) {n m : Nat} (p : PortSt) (h : m ≠ n) : (s.setPort n p).port m = s.port m := by
  simp [State.port, State.setPort, SMap.get_set_ne _ _ _ h]
@[simp] theorem State.queue_setQueue (s : State) (q : Nat) (v : Queue) : (s.setQueue q v).queue q = v := by
  simp [State.queue, State.setQueue]
theorem State.queue_setQueue_ne (s : State) {q r : Nat} (v : Queue) (h : r ≠ q) : (s.setQueue q v).queue r = s.queue r := by
  simp [State.queue, State.setQueue, SMap.get_set_ne _ _ _ h]
@[simp] theorem State.engine_setEngine (s : State) (e : Nat) (v : Engine) : (s.setEngine e v).engine e = v := by
  simp [State.engine, State.setEngine]
theorem State.engine_setEngine_ne (s : State) {e k : Nat} (v : Engine) (h : k ≠ e) : (s.setEngine e v).engine k = s.engine k := by
  simp [State.engine, State.setEngine, SMap.get_set_ne _ _ _ h]
@[simp] theorem State.can_setCan (s : State) (c : Nat) (v : Can) : (s.setCan c v).can c = v := by
  simp [State.can, State.setCan]
theorem State.can_setCan_ne (s : State) {c k : Nat} (v : Can) (h : k ≠ c) : (s.setCan c v).can k = s.can k := by
  simp [State.can, State.setCan, SMap.get_set_ne _ _ _ h]
@[simp] theorem State.linc_setLin (s : State) (l : Nat) (v : Lin) : (s.setLin l v).linc l = v := by
  simp [State.linc, State.setLin]
theorem State.linc_setLin_ne (s : State) {l k : Nat} (v : Lin) (h : k ≠ l) : (s.setLin l v).linc k = s.linc k := by
  simp [State.linc, State.setLin, SMap.get_set_ne _ _ _ h]
@[simp] theorem State.ring_setRing (s : State) (r : Nat) (v : Ring) : (s.setRing r v).ring r = v := by
  simp [State.ring, State.setRing]
theorem State.ring_setRing_ne (s : State) {r k : Nat} (v : Ring) (h : k ≠ r) : (s.setRing r v).ring k = s.ring k := by
  simp [State.ring, State.setRing, SMap.get_set_ne _ _ _ h]
@[simp] theorem State.slot_setSlot (s : State) (k : Nat) (v : Slot) : (s.setSlot k v).slot k = v := by
  simp [State.slot, State.setSlot]
theorem State.slot_setSlot_ne (s : State) {k j : Nat} (v : Slot) (h : j ≠ k) : (s.setSlot k v).slot j = s.slot j := by
  simp [State.slot, State.setSlot, SMap.get_set_ne _ _ _ h]
@[simp] theorem State.rtap_setTap (s : State) (t : Nat) (v : Tap) : (s.setTap t v).rtap t = v := by
  simp [State.rtap, State.setTap]
theorem State.rtap_setTap_ne (s : State) {t k : Nat} (v : Tap) (h : k ≠ t) : (s.setTap t v).rtap k = s.rtap k := by
  simp [State.rtap, State.setTap, SMap.get_set_ne _ _ _ h]

/-! ### A command's frame -/

@[simp] theorem State.quiet_out (s : State) : s.quiet.out = [] := rfl
@[simp] theorem State.port_quiet (s : State) (n : Nat) : s.quiet.port n = s.port n := rfl
@[simp] theorem State.queue_quiet (s : State) (n : Nat) : s.quiet.queue n = s.queue n := rfl
@[simp] theorem State.engine_quiet (s : State) (n : Nat) : s.quiet.engine n = s.engine n := rfl
@[simp] theorem State.can_quiet (s : State) (n : Nat) : s.quiet.can n = s.can n := rfl
@[simp] theorem State.linc_quiet (s : State) (n : Nat) : s.quiet.linc n = s.linc n := rfl
@[simp] theorem State.ring_quiet (s : State) (n : Nat) : s.quiet.ring n = s.ring n := rfl
@[simp] theorem State.slot_quiet (s : State) (n : Nat) : s.quiet.slot n = s.slot n := rfl
@[simp] theorem State.rtap_quiet (s : State) (n : Nat) : s.quiet.rtap n = s.rtap n := rfl
@[simp] theorem State.reg_quiet (s : State) (r : Reg) (i j : Nat) : s.quiet.reg r i j = s.reg r i j := rfl
@[simp] theorem State.ctr_quiet (s : State) (c : Ctr) : s.quiet.ctr c = s.ctr c := rfl
@[simp] theorem State.heldOf_quiet (s : State) (f : Nat) : s.quiet.heldOf f = s.heldOf f := rfl
@[simp] theorem State.copyOf_quiet (s : State) (k : Nat) : s.quiet.copyOf k = s.copyOf k := rfl
@[simp] theorem State.beat_quiet (s : State) : s.quiet.beat = s.beat := rfl

/-- A command of the D-die while the D-die runs. -/
theorem onDie_on {s : State} (h : s.dOn = true) (f : State → State) : onDie s f = .next (s.keepOutside (f s.quiet)) := by
  unfold onDie
  rw [if_pos h]

/-- A command of the D-die while it is off or held in reset. -/
theorem onDie_off {s : State} (h : s.dOn = false) (f : State → State) : onDie s f = .next s.quiet := by
  unfold onDie
  rw [if_neg (by simp [h])]

/-- Every command of the D-die answers a next state. -/
theorem onDie_next (s : State) (f : State → State) : ∃ t, onDie s f = .next t := by
  unfold onDie
  split <;> exact ⟨_, rfl⟩

/-! ### Counters -/

@[simp] theorem State.ctr_bump (s : State) (c : Ctr) (n : Nat) : (s.bump c n).ctr c = s.ctr c + BitVec.ofNat 64 n := by
  simp [State.ctr, State.bump]
theorem State.ctr_bump_ne (s : State) {c d : Ctr} (n : Nat) (h : d.off ≠ c.off) : (s.bump c n).ctr d = s.ctr d := by
  simp [State.ctr, State.bump, SMap.get_upd_ne _ _ _ h]

/-! ### Registers -/

@[simp] theorem State.reg_setReg (s : State) (r : Reg) (v : Word) (i j : Nat) : (s.setReg r v i j).reg r i j = v := by
  simp [State.reg, State.setReg]
theorem State.reg_setReg_ne (s : State) {r q : Reg} (v : Word) {i j k l : Nat} (h : q.addr k l ≠ r.addr i j) :
    (s.setReg r v i j).reg q k l = s.reg q k l := by
  simp [State.reg, State.setReg, SMap.get_set_ne' _ _ _ _ h]

@[simp] theorem State.rbit_setRbit (s : State) (r : Reg) (k : Nat) (b : Bool) (i j : Nat) (h : k < 32) :
    (s.setRbit r k b i j).rbit r k i j = b := by
  simp [State.rbit, State.setRbit, h]

/-- A sticky event leaves every register but its own. -/
theorem State.reg_flag_ne (s : State) {ev en q : Reg} (b : Nat) {i k l : Nat} (h : q.addr k l ≠ ev.addr i 0) :
    (s.flag ev en b i).reg q k l = s.reg q k l := by
  have h1 : (s.setRbit ev b true i).reg q k l = s.reg q k l := State.reg_setReg_ne s _ h
  unfold State.flag
  dsimp only
  split
  · exact h1
  · exact h1

/-- A sticky event sets its bit. -/
theorem State.rbit_flag (s : State) (ev en : Reg) (k i : Nat) (h : k < 32) : (s.flag ev en k i).rbit ev k i = true := by
  have h1 : (s.setRbit ev k true i).rbit ev k i = true := State.rbit_setRbit s ev k true i 0 h
  unfold State.flag
  dsimp only
  split
  · exact h1
  · exact h1

end Sys2Proof.Machine
end

