-- ==== Sys2Proof/Laws/Commands.lean ====
section
/-! SUPPORT. What the frames of a command do (onDie, always, onClk, fromHost, onBar0): whether its effect takes place, and from
which state. -/

namespace Sys2Proof.Machine

/-! ### The count of BAR0 writes -/

@[simp] theorem seqStep_pending (s : State) : (seqStep s).pending = s.pending := rfl
@[simp] theorem seqStep_part (s : State) : (seqStep s).part = s.part := rfl
@[simp] theorem seqStep_dOn (s : State) : (seqStep s).dOn = s.dOn := rfl
@[simp] theorem seqStep_prep (s : State) : (seqStep s).prep = s.prep := rfl
@[simp] theorem seqStep_ctrs (s : State) : (seqStep s).ctrs = s.ctrs := rfl
@[simp] theorem seqStep_snap (s : State) : (seqStep s).snap = s.snap := rfl
@[simp] theorem seqStep_hiLatch (s : State) : (seqStep s).hiLatch = s.hiLatch := rfl
@[simp] theorem seqStep_time (s : State) : (seqStep s).time = s.time := rfl
@[simp] theorem seqStep_ports (s : State) : (seqStep s).ports = s.ports := rfl
@[simp] theorem seqStep_held (s : State) : (seqStep s).held = s.held := rfl
@[simp] theorem seqStep_nextFrame (s : State) : (seqStep s).nextFrame = s.nextFrame := rfl
@[simp] theorem seqStep_copies (s : State) : (seqStep s).copies = s.copies := rfl
@[simp] theorem seqStep_nextCopy (s : State) : (seqStep s).nextCopy = s.nextCopy := rfl
@[simp] theorem seqStep_queues (s : State) : (seqStep s).queues = s.queues := rfl
@[simp] theorem seqStep_picFull (s : State) : (seqStep s).picFull = s.picFull := rfl
@[simp] theorem seqStep_pics (s : State) : (seqStep s).pics = s.pics := rfl
@[simp] theorem seqStep_tracks (s : State) : (seqStep s).tracks = s.tracks := rfl
@[simp] theorem seqStep_audit (s : State) : (seqStep s).audit = s.audit := rfl
@[simp] theorem seqStep_softRetired (s : State) : (seqStep s).softRetired = s.softRetired := rfl
@[simp] theorem seqStep_graphEpoch (s : State) : (seqStep s).graphEpoch = s.graphEpoch := rfl
@[simp] theorem seqStep_twin (s : State) : (seqStep s).twin = s.twin := rfl
@[simp] theorem seqStep_ruleEpoch (s : State) : (seqStep s).ruleEpoch = s.ruleEpoch := rfl
@[simp] theorem seqStep_ruleCopy (s : State) : (seqStep s).ruleCopy = s.ruleCopy := rfl
@[simp] theorem seqStep_gw (s : State) : (seqStep s).gw = s.gw := rfl
@[simp] theorem seqStep_eng (s : State) : (seqStep s).eng = s.eng := rfl
@[simp] theorem seqStep_loader (s : State) : (seqStep s).loader = s.loader := rfl
@[simp] theorem seqStep_hif (s : State) : (seqStep s).hif = s.hif := rfl
@[simp] theorem seqStep_cry (s : State) : (seqStep s).cry = s.cry := rfl
@[simp] theorem seqStep_ret (s : State) : (seqStep s).ret = s.ret := rfl
@[simp] theorem seqStep_chk (s : State) : (seqStep s).chk = s.chk := rfl
@[simp] theorem seqStep_bug (s : State) : (seqStep s).bug = s.bug := rfl
@[simp] theorem seqStep_upd (s : State) : (seqStep s).upd = s.upd := rfl
@[simp] theorem seqStep_clk (s : State) : (seqStep s).clk = s.clk := rfl
@[simp] theorem seqStep_lim (s : State) : (seqStep s).lim = s.lim := rfl
@[simp] theorem seqStep_gpioHold (s : State) : (seqStep s).gpioHold = s.gpioHold := rfl
@[simp] theorem seqStep_snapAt (s : State) : (seqStep s).snapAt = s.snapAt := rfl
@[simp] theorem seqStep_out (s : State) : (seqStep s).out = s.out := rfl
@[simp] theorem seqStep_free (s : State) : (seqStep s).free = s.free := rfl

@[simp] theorem seqStep_seq (s : State) : (seqStep s).reg .HIF_BAR0_SEQ = s.reg .HIF_BAR0_SEQ + 1 := State.reg_setReg s _ _ 0 0

/-- It is the only register that counting a write changes. -/
theorem seqStep_reg_ne (s : State) {q : Reg} {k l : Nat} (h : q.addr k l ≠ Reg.HIF_BAR0_SEQ.addr 0 0) :
    (seqStep s).reg q k l = s.reg q k l := State.reg_setReg_ne s _ h

@[simp] theorem seqStep_clkRuns (s : State) (k : Nat) : (seqStep s).clkRuns k = s.clkRuns k := by
  simp only [State.clkRuns, State.rbit, seqStep_reg_ne s (show Reg.CLK_DOMAIN_STATUS.addr 0 0 ≠ _ by decide)]
@[simp] theorem seqStep_stopped (s : State) (a : Nat) : (seqStep s).stopped a = s.stopped a := by
  simp only [State.stopped, seqStep_clkRuns]
@[simp] theorem seqStep_hostUp (s : State) : (seqStep s).hostUp = s.hostUp := rfl
@[simp] theorem seqStep_partLacks (s : State) (r : Reg) (i : Nat) : (seqStep s).partLacks r i = s.partLacks r i := rfl
@[simp] theorem seqStep_regRefusal (s : State) (r : Reg) (i : Nat) : (seqStep s).regRefusal r i = s.regRefusal r i := by
  have h : (seqStep s).rbit .GLB_LOCK 0 = s.rbit .GLB_LOCK 0 := by
    simp only [State.rbit, seqStep_reg_ne s (show Reg.GLB_LOCK.addr 0 0 ≠ _ by decide)]
  unfold State.regRefusal
  rw [seqStep_partLacks, seqStep_stopped, h]
@[simp] theorem State.hostUp_quiet (s : State) : s.quiet.hostUp = s.hostUp := rfl
@[simp] theorem State.stopped_quiet (s : State) (a : Nat) : s.quiet.stopped a = s.stopped a := rfl
@[simp] theorem State.regRefusal_quiet (s : State) (r : Reg) (i : Nat) : s.quiet.regRefusal r i = s.regRefusal r i := rfl

/-- What keeps the waiting commands, the part and RESET_N is what it came from. -/
theorem State.keepOutside_same {s t : State} (hp : t.pending = s.pending) (ha : t.part = s.part) (hr : t.clk.resetN = s.clk.resetN) :
    s.keepOutside t = t := by
  unfold State.keepOutside
  rw [← hp, ← ha, ← hr]
@[simp] theorem State.keepOutside_quiet (s : State) : s.keepOutside s.quiet = s.quiet := State.keepOutside_same rfl rfl rfl
@[simp] theorem State.keepOutside_seqStep (s : State) : s.keepOutside (seqStep s.quiet) = seqStep s.quiet := State.keepOutside_same rfl rfl rfl

/-! ### Commands of the D-die -/

/-- Whether the D-die runs or not, what a command of it answers. -/
theorem onDie_eq (s : State) (f : State → State) : onDie s f = .next (if s.dOn then s.keepOutside (f s.quiet) else s.quiet) := by
  cases h : s.dOn
  · simp [onDie_off h]
  · simp [onDie_on h]

theorem always_eq (s : State) (f : State → State) : always s f = .next (s.keepOutside (f s.quiet)) := rfl

/-- A command of a block whose clock is stopped does nothing. -/
theorem onClk_stopped {s : State} {k : Nat} (h : s.clkRuns k = false) (f : State → State) : onClk s k f = .next s.quiet := by
  unfold onClk
  have h' : s.quiet.clkRuns k = false := h
  simp [onDie_eq, h']

theorem onClk_runs {s : State} {k : Nat} (hd : s.dOn = true) (h : s.clkRuns k = true) (f : State → State) :
    onClk s k f = .next (s.keepOutside (f s.quiet)) := by
  unfold onClk
  have h' : s.quiet.clkRuns k = true := h
  simp [onDie_eq, hd, h']

/-! ### Commands of the host -/

/-- While the host cannot reach the device its commands do nothing. -/
theorem fromHost_down {s : State} (h : s.hostUp = false) (f : State → State) : fromHost s f = .next s.quiet := by
  unfold fromHost
  simp [onDie_eq, h]

theorem fromHost_up {s : State} (hd : s.dOn = true) (h : s.hostUp = true) (f : State → State) :
    fromHost s f = .next (s.keepOutside (f s.quiet)) := by
  unfold fromHost
  simp [onDie_eq, hd, h]

/-- R351: a served BAR0 write is counted and has its effect. -/
theorem onBar0_served {s : State} {r : Reg} {i : Nat} (h : Served s r i) (f : State → State) :
    onBar0 s r i f = .next (s.keepOutside (f (seqStep s.quiet))) := by
  obtain ⟨hd, hu, hr⟩ := h
  unfold onBar0
  rw [fromHost_up hd hu]
  simp [barWrite, hr]

/-- R4: a BAR0 write to what the part lacks is counted alone. -/
theorem onBar0_lacks {s : State} {r : Reg} {i : Nat} (hd : s.dOn = true) (hu : s.hostUp = true) (h : s.regRefusal r i = some 0)
    (f : State → State) : onBar0 s r i f = .next (seqStep s.quiet) := by
  unfold onBar0
  rw [fromHost_up hd hu]
  simp [barWrite, h]

/-- R351, R379: a BAR0 write that is refused is counted and logged. -/
theorem onBar0_refused {s : State} {r : Reg} {i c : Nat} (hd : s.dOn = true) (hu : s.hostUp = true) (h : s.regRefusal r i = some (c + 1))
    (f : State → State) : onBar0 s r i f =
      .next (s.keepOutside (pweLog (seqStep s.quiet) 15 (r.addr i 0) (s.reg .HIF_BAR0_SEQ + 1).toNat (c + 1))) := by
  unfold onBar0
  rw [fromHost_up hd hu]
  simp [barWrite, h]

/-- Every command of the host answers a next state. -/
theorem onBar0_next (s : State) (r : Reg) (i : Nat) (f : State → State) : ∃ t, onBar0 s r i f = .next t := onDie_next s _

/-! ### The posted-write error log -/

@[simp] theorem State.satInc_pending (s : State) (r : Reg) (lo n i : Nat) : (s.satInc r lo n i).pending = s.pending := by
  unfold State.satInc; dsimp only; split <;> rfl
@[simp] theorem State.satInc_part (s : State) (r : Reg) (lo n i : Nat) : (s.satInc r lo n i).part = s.part := by
  unfold State.satInc; dsimp only; split <;> rfl
@[simp] theorem State.satInc_dOn (s : State) (r : Reg) (lo n i : Nat) : (s.satInc r lo n i).dOn = s.dOn := by
  unfold State.satInc; dsimp only; split <;> rfl
@[simp] theorem State.satInc_prep (s : State) (r : Reg) (lo n i : Nat) : (s.satInc r lo n i).prep = s.prep := by
  unfold State.satInc; dsimp only; split <;> rfl
@[simp] theorem State.satInc_ctrs (s : State) (r : Reg) (lo n i : Nat) : (s.satInc r lo n i).ctrs = s.ctrs := by
  unfold State.satInc; dsimp only; split <;> rfl
@[simp] theorem State.satInc_snap (s : State) (r : Reg) (lo n i : Nat) : (s.satInc r lo n i).snap = s.snap := by
  unfold State.satInc; dsimp only; split <;> rfl
@[simp] theorem State.satInc_hiLatch (s : State) (r : Reg) (lo n i : Nat) : (s.satInc r lo n i).hiLatch = s.hiLatch := by
  unfold State.satInc; dsimp only; split <;> rfl
@[simp] theorem State.satInc_time (s : State) (r : Reg) (lo n i : Nat) : (s.satInc r lo n i).time = s.time := by
  unfold State.satInc; dsimp only; split <;> rfl
@[simp] theorem State.satInc_ports (s : State) (r : Reg) (lo n i : Nat) : (s.satInc r lo n i).ports = s.ports := by
  unfold State.satInc; dsimp only; split <;> rfl
@[simp] theorem State.satInc_held (s : State) (r : Reg) (lo n i : Nat) : (s.satInc r lo n i).held = s.held := by
  unfold State.satInc; dsimp only; split <;> rfl
@[simp] theorem State.satInc_nextFrame (s : State) (r : Reg) (lo n i : Nat) : (s.satInc r lo n i).nextFrame = s.nextFrame := by
  unfold State.satInc; dsimp only; split <;> rfl
@[simp] theorem State.satInc_copies (s : State) (r : Reg) (lo n i : Nat) : (s.satInc r lo n i).copies = s.copies := by
  unfold State.satInc; dsimp only; split <;> rfl
@[simp] theorem State.satInc_nextCopy (s : State) (r : Reg) (lo n i : Nat) : (s.satInc r lo n i).nextCopy = s.nextCopy := by
  unfold State.satInc; dsimp only; split <;> rfl
@[simp] theorem State.satInc_queues (s : State) (r : Reg) (lo n i : Nat) : (s.satInc r lo n i).queues = s.queues := by
  unfold State.satInc; dsimp only; split <;> rfl
@[simp] theorem State.satInc_picFull (s : State) (r : Reg) (lo n i : Nat) : (s.satInc r lo n i).picFull = s.picFull := by
  unfold State.satInc; dsimp only; split <;> rfl
@[simp] theorem State.satInc_pics (s : State) (r : Reg) (lo n i : Nat) : (s.satInc r lo n i).pics = s.pics := by
  unfold State.satInc; dsimp only; split <;> rfl
@[simp] theorem State.satInc_tracks (s : State) (r : Reg) (lo n i : Nat) : (s.satInc r lo n i).tracks = s.tracks := by
  unfold State.satInc; dsimp only; split <;> rfl
@[simp] theorem State.satInc_audit (s : State) (r : Reg) (lo n i : Nat) : (s.satInc r lo n i).audit = s.audit := by
  unfold State.satInc; dsimp only; split <;> rfl
@[simp] theorem State.satInc_softRetired (s : State) (r : Reg) (lo n i : Nat) : (s.satInc r lo n i).softRetired = s.softRetired := by
  unfold State.satInc; dsimp only; split <;> rfl
@[simp] theorem State.satInc_graphEpoch (s : State) (r : Reg) (lo n i : Nat) : (s.satInc r lo n i).graphEpoch = s.graphEpoch := by
  unfold State.satInc; dsimp only; split <;> rfl
@[simp] theorem State.satInc_twin (s : State) (r : Reg) (lo n i : Nat) : (s.satInc r lo n i).twin = s.twin := by
  unfold State.satInc; dsimp only; split <;> rfl
@[simp] theorem State.satInc_ruleEpoch (s : State) (r : Reg) (lo n i : Nat) : (s.satInc r lo n i).ruleEpoch = s.ruleEpoch := by
  unfold State.satInc; dsimp only; split <;> rfl
@[simp] theorem State.satInc_ruleCopy (s : State) (r : Reg) (lo n i : Nat) : (s.satInc r lo n i).ruleCopy = s.ruleCopy := by
  unfold State.satInc; dsimp only; split <;> rfl
@[simp] theorem State.satInc_gw (s : State) (r : Reg) (lo n i : Nat) : (s.satInc r lo n i).gw = s.gw := by
  unfold State.satInc; dsimp only; split <;> rfl
@[simp] theorem State.satInc_eng (s : State) (r : Reg) (lo n i : Nat) : (s.satInc r lo n i).eng = s.eng := by
  unfold State.satInc; dsimp only; split <;> rfl
@[simp] theorem State.satInc_loader (s : State) (r : Reg) (lo n i : Nat) : (s.satInc r lo n i).loader = s.loader := by
  unfold State.satInc; dsimp only; split <;> rfl
@[simp] theorem State.satInc_hif (s : State) (r : Reg) (lo n i : Nat) : (s.satInc r lo n i).hif = s.hif := by
  unfold State.satInc; dsimp only; split <;> rfl
@[simp] theorem State.satInc_cry (s : State) (r : Reg) (lo n i : Nat) : (s.satInc r lo n i).cry = s.cry := by
  unfold State.satInc; dsimp only; split <;> rfl
@[simp] theorem State.satInc_ret (s : State) (r : Reg) (lo n i : Nat) : (s.satInc r lo n i).ret = s.ret := by
  unfold State.satInc; dsimp only; split <;> rfl
@[simp] theorem State.satInc_chk (s : State) (r : Reg) (lo n i : Nat) : (s.satInc r lo n i).chk = s.chk := by
  unfold State.satInc; dsimp only; split <;> rfl
@[simp] theorem State.satInc_bug (s : State) (r : Reg) (lo n i : Nat) : (s.satInc r lo n i).bug = s.bug := by
  unfold State.satInc; dsimp only; split <;> rfl
@[simp] theorem State.satInc_upd (s : State) (r : Reg) (lo n i : Nat) : (s.satInc r lo n i).upd = s.upd := by
  unfold State.satInc; dsimp only; split <;> rfl
@[simp] theorem State.satInc_clk (s : State) (r : Reg) (lo n i : Nat) : (s.satInc r lo n i).clk = s.clk := by
  unfold State.satInc; dsimp only; split <;> rfl
@[simp] theorem State.satInc_lim (s : State) (r : Reg) (lo n i : Nat) : (s.satInc r lo n i).lim = s.lim := by
  unfold State.satInc; dsimp only; split <;> rfl
@[simp] theorem State.satInc_gpioHold (s : State) (r : Reg) (lo n i : Nat) : (s.satInc r lo n i).gpioHold = s.gpioHold := by
  unfold State.satInc; dsimp only; split <;> rfl
@[simp] theorem State.satInc_snapAt (s : State) (r : Reg) (lo n i : Nat) : (s.satInc r lo n i).snapAt = s.snapAt := by
  unfold State.satInc; dsimp only; split <;> rfl
@[simp] theorem State.satInc_out (s : State) (r : Reg) (lo n i : Nat) : (s.satInc r lo n i).out = s.out := by
  unfold State.satInc; dsimp only; split <;> rfl
@[simp] theorem State.satInc_free (s : State) (r : Reg) (lo n i : Nat) : (s.satInc r lo n i).free = s.free := by
  unfold State.satInc; dsimp only; split <;> rfl
@[simp] theorem pweLog_pending (s : State) (a b c d : Nat) : (pweLog s a b c d).pending = s.pending := by
  unfold pweLog; dsimp only; split <;> simp
@[simp] theorem pweLog_part (s : State) (a b c d : Nat) : (pweLog s a b c d).part = s.part := by
  unfold pweLog; dsimp only; split <;> simp
@[simp] theorem pweLog_dOn (s : State) (a b c d : Nat) : (pweLog s a b c d).dOn = s.dOn := by
  unfold pweLog; dsimp only; split <;> simp
@[simp] theorem pweLog_prep (s : State) (a b c d : Nat) : (pweLog s a b c d).prep = s.prep := by
  unfold pweLog; dsimp only; split <;> simp
@[simp] theorem pweLog_ctrs (s : State) (a b c d : Nat) : (pweLog s a b c d).ctrs = s.ctrs := by
  unfold pweLog; dsimp only; split <;> simp
@[simp] theorem pweLog_snap (s : State) (a b c d : Nat) : (pweLog s a b c d).snap = s.snap := by
  unfold pweLog; dsimp only; split <;> simp
@[simp] theorem pweLog_hiLatch (s : State) (a b c d : Nat) : (pweLog s a b c d).hiLatch = s.hiLatch := by
  unfold pweLog; dsimp only; split <;> simp
@[simp] theorem pweLog_time (s : State) (a b c d : Nat) : (pweLog s a b c d).time = s.time := by
  unfold pweLog; dsimp only; split <;> simp
@[simp] theorem pweLog_ports (s : State) (a b c d : Nat) : (pweLog s a b c d).ports = s.ports := by
  unfold pweLog; dsimp only; split <;> simp
@[simp] theorem pweLog_held (s : State) (a b c d : Nat) : (pweLog s a b c d).held = s.held := by
  unfold pweLog; dsimp only; split <;> simp
@[simp] theorem pweLog_nextFrame (s : State) (a b c d : Nat) : (pweLog s a b c d).nextFrame = s.nextFrame := by
  unfold pweLog; dsimp only; split <;> simp
@[simp] theorem pweLog_copies (s : State) (a b c d : Nat) : (pweLog s a b c d).copies = s.copies := by
  unfold pweLog; dsimp only; split <;> simp
@[simp] theorem pweLog_nextCopy (s : State) (a b c d : Nat) : (pweLog s a b c d).nextCopy = s.nextCopy := by
  unfold pweLog; dsimp only; split <;> simp
@[simp] theorem pweLog_queues (s : State) (a b c d : Nat) : (pweLog s a b c d).queues = s.queues := by
  unfold pweLog; dsimp only; split <;> simp
@[simp] theorem pweLog_picFull (s : State) (a b c d : Nat) : (pweLog s a b c d).picFull = s.picFull := by
  unfold pweLog; dsimp only; split <;> simp
@[simp] theorem pweLog_pics (s : State) (a b c d : Nat) : (pweLog s a b c d).pics = s.pics := by
  unfold pweLog; dsimp only; split <;> simp
@[simp] theorem pweLog_tracks (s : State) (a b c d : Nat) : (pweLog s a b c d).tracks = s.tracks := by
  unfold pweLog; dsimp only; split <;> simp
@[simp] theorem pweLog_audit (s : State) (a b c d : Nat) : (pweLog s a b c d).audit = s.audit := by
  unfold pweLog; dsimp only; split <;> simp
@[simp] theorem pweLog_softRetired (s : State) (a b c d : Nat) : (pweLog s a b c d).softRetired = s.softRetired := by
  unfold pweLog; dsimp only; split <;> simp
@[simp] theorem pweLog_graphEpoch (s : State) (a b c d : Nat) : (pweLog s a b c d).graphEpoch = s.graphEpoch := by
  unfold pweLog; dsimp only; split <;> simp
@[simp] theorem pweLog_twin (s : State) (a b c d : Nat) : (pweLog s a b c d).twin = s.twin := by
  unfold pweLog; dsimp only; split <;> simp
@[simp] theorem pweLog_ruleEpoch (s : State) (a b c d : Nat) : (pweLog s a b c d).ruleEpoch = s.ruleEpoch := by
  unfold pweLog; dsimp only; split <;> simp
@[simp] theorem pweLog_ruleCopy (s : State) (a b c d : Nat) : (pweLog s a b c d).ruleCopy = s.ruleCopy := by
  unfold pweLog; dsimp only; split <;> simp
@[simp] theorem pweLog_gw (s : State) (a b c d : Nat) : (pweLog s a b c d).gw = s.gw := by
  unfold pweLog; dsimp only; split <;> simp
@[simp] theorem pweLog_eng (s : State) (a b c d : Nat) : (pweLog s a b c d).eng = s.eng := by
  unfold pweLog; dsimp only; split <;> simp
@[simp] theorem pweLog_loader (s : State) (a b c d : Nat) : (pweLog s a b c d).loader = s.loader := by
  unfold pweLog; dsimp only; split <;> simp
@[simp] theorem pweLog_cry (s : State) (a b c d : Nat) : (pweLog s a b c d).cry = s.cry := by
  unfold pweLog; dsimp only; split <;> simp
@[simp] theorem pweLog_ret (s : State) (a b c d : Nat) : (pweLog s a b c d).ret = s.ret := by
  unfold pweLog; dsimp only; split <;> simp
@[simp] theorem pweLog_chk (s : State) (a b c d : Nat) : (pweLog s a b c d).chk = s.chk := by
  unfold pweLog; dsimp only; split <;> simp
@[simp] theorem pweLog_bug (s : State) (a b c d : Nat) : (pweLog s a b c d).bug = s.bug := by
  unfold pweLog; dsimp only; split <;> simp
@[simp] theorem pweLog_upd (s : State) (a b c d : Nat) : (pweLog s a b c d).upd = s.upd := by
  unfold pweLog; dsimp only; split <;> simp
@[simp] theorem pweLog_clk (s : State) (a b c d : Nat) : (pweLog s a b c d).clk = s.clk := by
  unfold pweLog; dsimp only; split <;> simp
@[simp] theorem pweLog_lim (s : State) (a b c d : Nat) : (pweLog s a b c d).lim = s.lim := by
  unfold pweLog; dsimp only; split <;> simp
@[simp] theorem pweLog_gpioHold (s : State) (a b c d : Nat) : (pweLog s a b c d).gpioHold = s.gpioHold := by
  unfold pweLog; dsimp only; split <;> simp
@[simp] theorem pweLog_snapAt (s : State) (a b c d : Nat) : (pweLog s a b c d).snapAt = s.snapAt := by
  unfold pweLog; dsimp only; split <;> simp
@[simp] theorem pweLog_out (s : State) (a b c d : Nat) : (pweLog s a b c d).out = s.out := by
  unfold pweLog; dsimp only; split <;> simp
@[simp] theorem pweLog_free (s : State) (a b c d : Nat) : (pweLog s a b c d).free = s.free := by
  unfold pweLog; dsimp only; split <;> simp

/-! ### What a sticky event and a record leave of the host interface -/

@[simp] theorem State.flag_hif_bme (s : State) (ev en : Reg) (k i : Nat) : (s.flag ev en k i).hif.bme = s.hif.bme := by
  unfold State.flag; dsimp only; split <;> rfl
@[simp] theorem State.emitIf_hif_bme (s : State) (b : Bool) (c x d : Nat) (l : List Word) : (s.emitIf b c x d l).hif.bme = s.hif.bme := by
  unfold State.emitIf; split <;> rfl
@[simp] theorem State.flag_hif_poll (s : State) (ev en : Reg) (k i : Nat) : (s.flag ev en k i).hif.poll = s.hif.poll := by
  unfold State.flag; dsimp only; split <;> rfl
@[simp] theorem State.emitIf_hif_poll (s : State) (b : Bool) (c x d : Nat) (l : List Word) : (s.emitIf b c x d l).hif.poll = s.hif.poll := by
  unfold State.emitIf; split <;> rfl
@[simp] theorem State.flag_hif_pollAgain (s : State) (ev en : Reg) (k i : Nat) : (s.flag ev en k i).hif.pollAgain = s.hif.pollAgain := by
  unfold State.flag; dsimp only; split <;> rfl
@[simp] theorem State.emitIf_hif_pollAgain (s : State) (b : Bool) (c x d : Nat) (l : List Word) : (s.emitIf b c x d l).hif.pollAgain = s.hif.pollAgain := by
  unfold State.emitIf; split <;> rfl
@[simp] theorem State.flag_hif_ring (s : State) (ev en : Reg) (k i : Nat) : (s.flag ev en k i).hif.ring = s.hif.ring := by
  unfold State.flag; dsimp only; split <;> rfl
@[simp] theorem State.emitIf_hif_ring (s : State) (b : Bool) (c x d : Nat) (l : List Word) : (s.emitIf b c x d l).hif.ring = s.hif.ring := by
  unfold State.emitIf; split <;> rfl
@[simp] theorem State.emitIf_hif_vec (s : State) (b : Bool) (c x d : Nat) (l : List Word) : (s.emitIf b c x d l).hif.vec = s.hif.vec := by
  unfold State.emitIf; split <;> rfl
@[simp] theorem State.flag_hif_pba (s : State) (ev en : Reg) (k i : Nat) : (s.flag ev en k i).hif.pba = s.hif.pba := by
  unfold State.flag; dsimp only; split <;> rfl
@[simp] theorem State.emitIf_hif_pba (s : State) (b : Bool) (c x d : Nat) (l : List Word) : (s.emitIf b c x d l).hif.pba = s.hif.pba := by
  unfold State.emitIf; split <;> rfl
@[simp] theorem State.flag_hif_evNew (s : State) (ev en : Reg) (k i : Nat) : (s.flag ev en k i).hif.evNew = s.hif.evNew := by
  unfold State.flag; dsimp only; split <;> rfl
@[simp] theorem State.flag_hif_evWait (s : State) (ev en : Reg) (k i : Nat) : (s.flag ev en k i).hif.evWait = s.hif.evWait := by
  unfold State.flag; dsimp only; split <;> rfl
@[simp] theorem State.emitIf_hif_evWait (s : State) (b : Bool) (c x d : Nat) (l : List Word) : (s.emitIf b c x d l).hif.evWait = s.hif.evWait := by
  unfold State.emitIf; split <;> rfl
@[simp] theorem State.flag_hif_evSeq (s : State) (ev en : Reg) (k i : Nat) : (s.flag ev en k i).hif.evSeq = s.hif.evSeq := by
  unfold State.flag; dsimp only; split <;> rfl
@[simp] theorem State.flag_hif_reclaim (s : State) (ev en : Reg) (k i : Nat) : (s.flag ev en k i).hif.reclaim = s.hif.reclaim := by
  unfold State.flag; dsimp only; split <;> rfl
@[simp] theorem State.emitIf_hif_reclaim (s : State) (b : Bool) (c x d : Nat) (l : List Word) : (s.emitIf b c x d l).hif.reclaim = s.hif.reclaim := by
  unfold State.emitIf; split <;> rfl
@[simp] theorem State.flag_hif_slabs (s : State) (ev en : Reg) (k i : Nat) : (s.flag ev en k i).hif.slabs = s.hif.slabs := by
  unfold State.flag; dsimp only; split <;> rfl
@[simp] theorem State.emitIf_hif_slabs (s : State) (b : Bool) (c x d : Nat) (l : List Word) : (s.emitIf b c x d l).hif.slabs = s.hif.slabs := by
  unfold State.emitIf; split <;> rfl
@[simp] theorem State.flag_hif_flags (s : State) (ev en : Reg) (k i : Nat) : (s.flag ev en k i).hif.flags = s.hif.flags := by
  unfold State.flag; dsimp only; split <;> rfl
@[simp] theorem State.emitIf_hif_flags (s : State) (b : Bool) (c x d : Nat) (l : List Word) : (s.emitIf b c x d l).hif.flags = s.hif.flags := by
  unfold State.emitIf; split <;> rfl
@[simp] theorem State.flag_hif_perst (s : State) (ev en : Reg) (k i : Nat) : (s.flag ev en k i).hif.perst = s.hif.perst := by
  unfold State.flag; dsimp only; split <;> rfl
@[simp] theorem State.emitIf_hif_perst (s : State) (b : Bool) (c x d : Nat) (l : List Word) : (s.emitIf b c x d l).hif.perst = s.hif.perst := by
  unfold State.emitIf; split <;> rfl
@[simp] theorem State.flag_hif_rr (s : State) (ev en : Reg) (k i : Nat) : (s.flag ev en k i).hif.rr = s.hif.rr := by
  unfold State.flag; dsimp only; split <;> rfl
@[simp] theorem State.emitIf_hif_rr (s : State) (b : Bool) (c x d : Nat) (l : List Word) : (s.emitIf b c x d l).hif.rr = s.hif.rr := by
  unfold State.emitIf; split <;> rfl
@[simp] theorem State.flag_hif_win (s : State) (ev en : Reg) (k i : Nat) : (s.flag ev en k i).hif.win = s.hif.win := by
  unfold State.flag; dsimp only; split <;> rfl
@[simp] theorem State.emitIf_hif_win (s : State) (b : Bool) (c x d : Nat) (l : List Word) : (s.emitIf b c x d l).hif.win = s.hif.win := by
  unfold State.emitIf; split <;> rfl
@[simp] theorem State.flag_hif_pwe (s : State) (ev en : Reg) (k i : Nat) : (s.flag ev en k i).hif.pwe = s.hif.pwe := by
  unfold State.flag; dsimp only; split <;> rfl
@[simp] theorem State.emitIf_hif_pwe (s : State) (b : Bool) (c x d : Nat) (l : List Word) : (s.emitIf b c x d l).hif.pwe = s.hif.pwe := by
  unfold State.emitIf; split <;> rfl
@[simp] theorem State.flag_hif_answers (s : State) (ev en : Reg) (k i : Nat) : (s.flag ev en k i).hif.answers = s.hif.answers := by
  unfold State.flag; dsimp only; split <;> rfl
@[simp] theorem State.emitIf_hif_answers (s : State) (b : Bool) (c x d : Nat) (l : List Word) : (s.emitIf b c x d l).hif.answers = s.hif.answers := by
  unfold State.emitIf; split <;> rfl

/-- R379: an entry is added at the end of the log while it has room. -/
theorem pweLog_pwe (s : State) (src off seq cause : Nat) (h : s.hif.pwe.length < 64) :
    (pweLog s src off seq cause).hif.pwe = s.hif.pwe ++ [[BitVec.ofNat 32 (src + 256 * cause), BitVec.ofNat 32 (off % 2 ^ 26),
      BitVec.ofNat 32 seq, BitVec.ofNat 32 s.beat.toNat]] := by
  unfold pweLog
  dsimp only
  rw [if_pos h, State.emitIf_hif_pwe, State.flag_hif_pwe]

end Sys2Proof.Machine
end

