-- ==== Sys2Proof/Laws/Kelpie.lean ====
section
/-! SUPPORT. The Kelpie engines: what a register reads after a write, what reaching the next instruction changes, and the one
lemma about an instruction that writes a register. -/

namespace Sys2Proof.Machine

/-! ### Registers (R301) -/

@[simp] theorem Engine.rg_zero (g : Engine) : g.rg 0 = 0 := by simp [Engine.rg]

/-- What a register reads after a write to one: k0 reads zero, and a write to it is discarded. -/
theorem Engine.rg_setRg (g : Engine) (k j : Nat) (v : Word) :
    (g.setRg k v).rg j = if j = k ∧ k ≠ 0 then v else g.rg j := by
  unfold Engine.setRg
  split
  · simp_all
  · rename_i hk
    by_cases hj : j = 0
    · subst hj
      have : ¬ (0 : Nat) = k := fun h => hk h.symm
      simp [this]
    · cases h : g.run <;> simp [Engine.inEvent, Engine.rg, h, hj, hk, SMap.get_set]

/-- A write to a register leaves the rest of the engine. -/
theorem Engine.setRg_shape (g : Engine) (k : Nat) (v : Word) :
    ∃ m e, g.setRg k v = { g with regM := m, regE := e } := by
  unfold Engine.setRg
  split
  · exact ⟨_, _, rfl⟩
  · split <;> exact ⟨_, _, rfl⟩

@[simp] theorem Engine.rg_spend (g : Engine) (n k : Nat) : (g.spend n).rg k = g.rg k := rfl
@[simp] theorem Engine.inEvent_spend (g : Engine) (n : Nat) : (g.spend n).inEvent = g.inEvent := rfl

/-! ### Reaching a word (R302 LOOP) -/

/-- Reaching a word moves the routine's place and its loops, and nothing else. -/
theorem Engine.reach_shape (n : Nat) (g : Engine) (a : Nat) :
    ∃ pm pe lm le, g.reach n a = { g with pcM := pm, pcE := pe, loopM := lm, loopE := le } := by
  induction n generalizing g with
  | zero =>
    unfold Engine.reach Engine.setPc
    split <;> exact ⟨_, _, _, _, rfl⟩
  | succ n ih =>
    unfold Engine.reach
    split
    · unfold Engine.setPc
      split <;> exact ⟨_, _, _, _, rfl⟩
    · rename_i first stop left t hl
      split
      · split
        · simp only [Engine.setLoops, Engine.setPc]
          split <;> split <;> exact ⟨_, _, _, _, rfl⟩
        · obtain ⟨pm, pe, lm, le, h⟩ := ih (g.setLoops t)
          rw [h]
          unfold Engine.setLoops
          split <;> exact ⟨_, _, _, _, rfl⟩
      · unfold Engine.setPc
        split <;> exact ⟨_, _, _, _, rfl⟩

/-- Where no loop ends at a word, reaching the next word goes there and leaves the loops. -/
theorem Engine.reach_plain (n : Nat) (g : Engine) (a : Nat)
    (h : ∀ l ∈ g.loops.head?, ¬ (l.2.1 / 4096 = g.calls.length ∧ a = l.2.1 % 4096 + 1)) : g.reach n a = g.setPc a := by
  cases n with
  | zero => rfl
  | succ n =>
    unfold Engine.reach
    split
    · rfl
    · rename_i first stop left t hl
      have := h (first, stop, left) (by simp [hl])
      rw [if_neg this]

@[simp] theorem Engine.pc_setPc (g : Engine) (a : Nat) : (g.setPc a).pc = a := by
  cases h : g.run <;> simp [Engine.setPc, Engine.pc, Engine.inEvent, h]

theorem Engine.setPc_shape (g : Engine) (a : Nat) : ∃ pm pe, g.setPc a = { g with pcM := pm, pcE := pe } := by
  unfold Engine.setPc
  split <;> exact ⟨_, _, rfl⟩

@[simp] theorem Engine.loops_setPc (g : Engine) (a : Nat) : (g.setPc a).loops = g.loops := by
  cases h : g.run <;> simp [Engine.setPc, Engine.loops, Engine.inEvent, h]

@[simp] theorem Engine.rg_setPc (g : Engine) (a k : Nat) : (g.setPc a).rg k = g.rg k := by
  obtain ⟨pm, pe, h⟩ := g.setPc_shape a
  rw [h]
  rfl

/-- Reaching a word leaves every register. -/
@[simp] theorem Engine.rg_reach (n : Nat) (g : Engine) (a k : Nat) : (g.reach n a).rg k = g.rg k := by
  obtain ⟨pm, pe, lm, le, h⟩ := Engine.reach_shape n g a
  rw [h]
  rfl

/-- The next instruction in sequence, where no loop ends here. -/
theorem Engine.next_advances (g0 g : Engine) (hp : g.pc = g0.pc) (hl : g.loops = g0.loops) (hc : g.calls = g0.calls) :
    Advances g0 g.next := by
  intro h
  unfold Engine.next
  rw [Engine.reach_plain]
  · simp [hp, hl]
  · intro l hm
    rw [hl] at hm
    have := h l hm
    rw [hc, hp]
    omega

/-! ### An instruction that writes a register -/

/-- Engine `e` takes a new value in a state with an empty record of outputs. -/
theorem onlyEngine_set (s : State) (e : Nat) (v : Engine) :
    OnlyEngine s (s.keepOutside (s.quiet.setEngine e v)) e := by
  refine ⟨rfl, fun k h => ?_⟩
  exact State.engine_setEngine_ne s.quiet v h

/-- What an instruction that writes a register does, whatever it writes. -/
theorem kReg_writes (s : State) (e rd cost : Nat) (v : Engine → Word) :
    WritesReg s (s.keepOutside (kReg s.quiet e rd cost v)) e rd (v (s.engine e)) cost := by
  have hg : (s.keepOutside (kReg s.quiet e rd cost v)).engine e =
      (((s.engine e).setRg rd (v (s.engine e))).spend cost).next :=
    State.engine_setEngine s.quiet e _
  obtain ⟨rm, re, hs⟩ := (s.engine e).setRg_shape rd (v (s.engine e))
  obtain ⟨pm, pe, lm, le, hr⟩ := Engine.reach_shape 5 (((s.engine e).setRg rd (v (s.engine e))).spend cost)
    ((((s.engine e).setRg rd (v (s.engine e))).spend cost).pc + 1)
  refine ⟨fun k => ?_, ?_, ?_, ?_, onlyEngine_set s e _⟩
  · rw [hg]
    unfold Engine.next
    rw [Engine.rg_reach, Engine.rg_spend, Engine.rg_setRg]
  · rw [hg]
    unfold Engine.next
    rw [hr, hs]
    rfl
  · rw [hg]
    refine Engine.next_advances _ _ ?_ ?_ ?_ <;> rw [hs] <;> rfl
  · rw [hg]
    unfold Engine.next
    rw [hr, hs]
    exact ⟨rfl, rfl, rfl, rfl, rfl, rfl, rfl, rfl⟩

/-- A command of an engine that executes a routine runs its instruction. -/
theorem onEng_runs {s : State} {e : Nat} (h : Runs s e) (f : State → State) :
    onEng s e f = .next (s.keepOutside (f s.quiet)) := by
  obtain ⟨h1, h2⟩ := h
  unfold onEng onDie
  rw [if_pos h1]
  dsimp only
  rw [if_pos (show s.quiet.engRuns e = true from h2)]

/-! ### Data memory (R303) -/

/-- A store changes data memory and nothing else of the engine. -/
theorem Engine.store_shape (g : Engine) (a : Nat) (l : List Byte) : ∃ d, g.store a l = { g with dat := d } := by
  induction l generalizing g a with
  | nil => exact ⟨_, rfl⟩
  | cons b t ih =>
    obtain ⟨d, h⟩ := ih { g with dat := SMap.set 0 g.dat a b } (a + 1)
    exact ⟨d, by rw [Engine.store, h]⟩

/-- What data memory reads after a store. -/
theorem Engine.store_dat (g : Engine) (a : Nat) (l : List Byte) (x : Nat) :
    SMap.get 0 (g.store a l).dat x = if a ≤ x ∧ x < a + l.length then byteAt l (x - a) else SMap.get 0 g.dat x := by
  induction l generalizing g a with
  | nil =>
    have : ¬ (a ≤ x ∧ x < a) := by omega
    simp [Engine.store, this]
  | cons b t ih =>
    rw [Engine.store, ih]
    by_cases h1 : a + 1 ≤ x ∧ x < a + 1 + t.length
    · have h2 : a ≤ x ∧ x < a + (b :: t).length := by simp; omega
      rw [if_pos h1, if_pos h2]
      obtain ⟨k, rfl⟩ : ∃ k, x = a + 1 + k := ⟨x - (a + 1), by omega⟩
      have e1 : a + 1 + k - (a + 1) = k := by omega
      have e2 : a + 1 + k - a = k + 1 := by omega
      rw [e1, e2]
      simp [byteAt]
    · rw [if_neg h1]
      by_cases h3 : x = a
      · subst h3
        simp [byteAt]
      · have h2 : ¬ (a ≤ x ∧ x < a + (b :: t).length) := by simp at h1 ⊢; omega
        rw [if_neg h2, SMap.get_set_ne _ _ _ h3]

@[simp] theorem Engine.rg_store (g : Engine) (a k : Nat) (l : List Byte) : (g.store a l).rg k = g.rg k := by
  obtain ⟨d, h⟩ := g.store_shape a l
  rw [h]
  rfl

/-! ### Branches (R302, R312) -/

/-- A branch moves the routine's place and its loops, and nothing else. -/
theorem Engine.jump_shape (g : Engine) (a : Nat) : ∃ pm pe lm le, g.jump a = { g with pcM := pm, pcE := pe, loopM := lm, loopE := le } := by
  unfold Engine.jump Engine.setLoops Engine.setPc
  split <;> split <;> exact ⟨_, _, _, _, rfl⟩

@[simp] theorem Engine.pc_jump (g : Engine) (a : Nat) : (g.jump a).pc = a := by
  unfold Engine.jump
  exact Engine.pc_setPc _ a

/-! ### Moving on after an instruction -/

/-- The engine after an instruction that leaves it as `g'` but for the cycles and the place. -/
theorem kNext_facts (g g' : Engine) (cost : Nat) (hp : g'.pc = g.pc) (hl : g'.loops = g.loops) (hc : g'.calls = g.calls)
    (hu : g'.used = g.used) :
    (g'.spend cost).next.used = g.used + cost ∧ Advances g (g'.spend cost).next ∧
    (g'.spend cost).next.dat = g'.dat ∧ (g'.spend cost).next.calls = g'.calls ∧ (g'.spend cost).next.run = g'.run ∧
    (g'.spend cost).next.item = g'.item ∧ (g'.spend cost).next.kp = g'.kp ∧ (g'.spend cost).next.kv = g'.kv ∧
    (g'.spend cost).next.image = g'.image ∧ (g'.spend cost).next.faulted = g'.faulted ∧
    ∀ k, (g'.spend cost).next.rg k = g'.rg k := by
  obtain ⟨pm, pe, lm, le, hr⟩ := Engine.reach_shape 5 (g'.spend cost) ((g'.spend cost).pc + 1)
  refine ⟨?_, Engine.next_advances _ _ hp hl hc, ?_, ?_, ?_, ?_, ?_, ?_, ?_, ?_, fun k => ?_⟩
  case refine_10 =>
    unfold Engine.next
    rw [Engine.rg_reach, Engine.rg_spend]
  all_goals
    unfold Engine.next
    rw [hr]
    first | rfl | exact congrArg (· + cost) hu

/-! ### A fault (R320, R321) -/

@[simp] theorem bugleEvent_reg (s : State) (a b c d : Nat) (w : Word) (q : Reg) (k l : Nat) :
    (bugleEvent s a b c d w).reg q k l = s.reg q k l := rfl

theorem bugFlag_reg_ne (s : State) (b : Nat) {q : Reg} {k l : Nat} (h : q.addr k l ≠ Reg.BUG_EVENT.addr 0 0) :
    (bugFlag s b).reg q k l = s.reg q k l := by
  unfold bugFlag
  split
  · exact State.reg_flag_ne s b h
  · rfl

/-- An abort of a sleep writes BUG_ABORT and BUG_EVENT, and no other register. -/
theorem bugAbort_reg_ne (s : State) (c x : Nat) {q : Reg} {k l : Nat} (h1 : q.addr k l ≠ Reg.BUG_EVENT.addr 0 0)
    (h2 : q.addr k l ≠ Reg.BUG_ABORT.addr 0 0) : (bugAbort s c x).reg q k l = s.reg q k l := by
  unfold bugAbort
  split
  · dsimp only
    rw [bugleEvent_reg]
    have h3 : ∀ (t : State) (b : Bool) (n m d : Nat) (a : List Word), (t.emitIf b n m d a).reg q k l = t.reg q k l := by
      intro t b n m d a
      simp [State.reg]
    rw [h3, bugFlag_reg_ne _ _ h1]
    exact State.reg_setReg_ne _ _ h2
  · rfl

/-- What a fault of an engine shows, whatever its requests and hand-offs bring about. -/
theorem engFault_shows (s : State) (e : Fin 16) (cause pc : Nat) (h : (s.engine e).faulted = false) :
    (engFault s e cause pc).reg .KLP_ENG_STATUS e = BitVec.ofNat 32 (cause * 16 + pc % 4096 * 256) ∧
    (engFault s e cause pc).rbit .KLP_ENG_EVENT 0 e = true := by
  unfold engFault
  rw [if_neg (by simp [h])]
  dsimp only
  generalize engineDark _ _ = t
  have a1 : Reg.KLP_ENG_STATUS.addr e 0 ≠ Reg.BUG_EVENT.addr 0 0 := Reg.addr_ne_above 0 0 (by decide) (by omega) (by omega) _ _
  have a2 : Reg.KLP_ENG_STATUS.addr e 0 ≠ Reg.BUG_ABORT.addr 0 0 := Reg.addr_ne_above 0 0 (by decide) (by omega) (by omega) _ _
  have a3 : Reg.KLP_ENG_EVENT.addr e 0 ≠ Reg.BUG_EVENT.addr 0 0 := Reg.addr_ne_above 0 0 (by decide) (by omega) (by omega) _ _
  have a4 : Reg.KLP_ENG_EVENT.addr e 0 ≠ Reg.BUG_ABORT.addr 0 0 := Reg.addr_ne_above 0 0 (by decide) (by omega) (by omega) _ _
  have a5 : Reg.KLP_ENG_STATUS.addr e 0 ≠ Reg.KLP_ENG_EVENT.addr e 0 := Reg.addr_ne_same (by decide) _ _
  have em : ∀ (t : State) (b : Bool) (n m d : Nat) (a : List Word) (q : Reg) (k l : Nat), (t.emitIf b n m d a).reg q k l = t.reg q k l := by
    intro t b n m d a q k l
    simp [State.reg]
  constructor
  · split
    · rw [bugAbort_reg_ne _ _ _ a1 a2, em, State.reg_flag_ne _ _ a5, State.reg_setReg]
    · rw [em, State.reg_flag_ne _ _ a5, State.reg_setReg]
  · unfold State.rbit
    split
    · rw [bugAbort_reg_ne _ _ _ a3 a4, em]
      exact State.rbit_flag _ _ _ 0 e (by omega)
    · rw [em]
      exact State.rbit_flag _ _ _ 0 e (by omega)
end Sys2Proof.Machine
end

