-- ==== Sys2Proof/WellFormed.lean ====
section
/-! DEFINITION. Which commands are well formed: the operands have the lengths and ranges that the unit delivering them
gives them (a descriptor of 8 words, a slab of 4,096 bytes, a CAN FD payload of a length that CAN FD has). -/

namespace Sys2Proof

/-- A bus access names at least one DW (R350). -/
def BusWrite.wf (a : BusWrite) : Bool := decide (1 ≤ a.dws)

/-- As BusWrite.wf. -/
def BusRead.wf (a : BusRead) : Bool := decide (1 ≤ a.dws)

/-- A command descriptor has 8 words and its data block 16 (R356, R364). -/
def commandWf (desc data : List Word) : Bool := decide (desc.length = 8) && decide (data.length = 16)

/-- A descriptor alone has 8 words (R356). -/
def descWf (desc : List Word) : Bool := decide (desc.length = 8)

/-- What is read of a slab is its 4,096 bytes (R369). -/
def slabsWf (slabs : List SlabRead) : Bool := slabs.all fun b => decide (b.data.length = 4096)

/-- A table command: a register's word, a descriptor with its data, or a record of 20 words (R126, R364, R365). -/
def CmdSrc.wf : CmdSrc → Bool
  | .reg _ => true
  | .ring _ _ desc data => commandWf desc data
  | .batch _ _ rec => decide (rec.length = 20)

/-- The payload lengths of CAN FD (R260). -/
def fdLengths : List Nat := [0, 1, 2, 3, 4, 5, 6, 7, 8, 12, 16, 20, 24, 32, 48, 64]

/-- A frame as its bus carries it: CAN and CAN FD with an identifier of 11 or 29 bits, CAN XL with a priority of 11 bits
and 1 to 2,048 bytes, LIN with an identifier of 6 bits and 1 to 8 bytes (R260). -/
def BusFrame.wf (f : BusFrame) : Bool :=
  match f.kind with
  | 0 => decide (f.id < if f.ide then 2 ^ 29 else 2 ^ 11) &&
      (if f.fdf then decide (f.data.length ∈ fdLengths) else decide (f.data.length ≤ 8))
  | 1 => decide (f.id < 2 ^ 11 ∧ 1 ≤ f.data.length ∧ f.data.length ≤ 2048 ∧ f.sdt < 256 ∧ f.vcid < 256 ∧ f.af < 2 ^ 32)
  | 2 => decide (f.id < 64 ∧ 1 ≤ f.data.length ∧ f.data.length ≤ 8)
  | _ => false

/-- A window access stays within its 1 MiB window (R373). -/
def WinAccess.wf (a : WinAccess) : Bool := decide (a.off.toNat + max a.bytes.length a.len ≤ 2 ^ 20)

/-- A WRITE carries as many bytes as its length says; a READ carries none (R374). -/
def EzReq.wf (r : EzReq) : Bool := decide (r.payload.length = if r.write then r.len else 0)

/-- Which commands are well formed. -/
def Instr.wf (i : Instr) : Bool :=
  match i with
  | .registerWrite acc => acc.wf
  | .rcRegisterRead acc => acc.wf
  | .counterLowRead off => decide (off.toNat % 8 = 0)
  | .beatBoundary rep => (rep.loadSlabs.map slabsWf).getD true
  | .coefficientStore n coef => decide (coef.taps.length = 22) && decide (n.val < 12)
  | .frameReceive _ rx => decide (1 ≤ rx.bytes.length)
  | .rxDelivery _ desc => desc.all fun ws => decide (ws.length = 8)
  | .tblRead src => src.wf
  | .tblWrite src => src.wf
  | .tblInsert src => src.wf
  | .tblDelete src => src.wf
  | .tblSearch src => src.wf
  | .tblNext src => src.wf
  | .flushPort src => src.wf
  | .tblMove src => src.wf
  | .seedSet src => src.wf
  | .canReceive _ f => f.wf && decide (f.kind ≠ 2)
  | .linResponseReceive _ _ resp _ => decide (1 ≤ resp.data.length ∧ resp.data.length ≤ 8)
  | .loadGo _ slabs => slabsWf slabs
  | .doorbellPollData data err => decide (err = .error) || decide (data.length = 256)
  | .txDescriptorArrival _ descs => decide (1 ≤ descs.length ∧ descs.length ≤ 8) && descs.all fun d => decide (d.length = 8)
  | .batch _ _ desc slabs => descWf desc && slabsWf slabs
  | .winWrite acc => acc.wf
  | .winRead acc => acc.wf
  | .localWindowAccess _ acc => acc.wf
  | .ezsynRequest rq => rq.wf
  | .keyImport _ _ desc data _ _ => commandWf desc data
  | .keyImportPlain _ _ desc data _ _ => commandWf desc data
  | .keyExport _ _ desc data _ _ => commandWf desc data
  | .keyErase _ _ desc data => commandWf desc data
  | .keyLoad _ _ desc data => commandWf desc data
  | .keyEvict _ _ desc data => commandWf desc data
  | .keyInfo _ _ desc data _ _ => commandWf desc data
  | .saWrite acc => acc.wf
  | .canFrame _ f => f.wf && decide (f.kind ≠ 2)
  | .updOpen _ _ desc data => commandWf desc data
  | .updWrite _ _ desc slabs => descWf desc && slabsWf slabs
  | .updCommit _ _ desc data => commandWf desc data
  | .updAbort _ _ desc data => commandWf desc data
  | .activate _ _ desc data => commandWf desc data
  | .activateTrial _ _ desc data => commandWf desc data
  | .incCtr _ _ desc data => commandWf desc data
  | .cfgCommit _ _ desc data => commandWf desc data
  | .cfgCancel _ _ desc data => commandWf desc data
  | .cfgDiscard _ _ desc data => commandWf desc data
  | .save _ _ desc data => commandWf desc data
  | .settingsPut _ _ desc slabs => descWf desc && slabsWf slabs
  | .settingsGet _ _ desc slabs => descWf desc && slabsWf slabs
  | .lldpTlvReceive _ _ tlv _ => decide (tlv.length ≤ 511)
  | .hang addr => decide (addr.toNat % 4 = 0)
  | .timeCntLoRead | .timeCapFifoLoRead _ | .timeCapFifoHiRead _ | .winFenceRead _ | .refreshWrite | .ctUpdateWrite
  | .streamSweep | .noClaim | .fvRenewalDone | .linkHoldExpiry _ | .hookTimeout _ | .picRecordFree _ _
  | .portEnable _ _ | .portDisable _ _ | .softRst _ _ | .forget _ | .linkUp _ _ | .linkDown _ | .fastFallback _
  | .plcaBeaconTimeout _ | .parse _ _ | .decision _ | .copyWrite _ _ | .copyLink _ | .transmitChoice _ _
  | .copySent _ _ | .gateChange _ | .creditZero _ | .giveUp _ _ | .pipelineWatchdog _ | .swap | .selftestDone _ _ _
  | .resyncEnd | .desync _ | .safeStateEntry _ | .hostForce _ | .safeLeave _ | .safeLeaveResult _ _ | .ctFlush
  | .unblock | .audit | .tblCmdComplete | .linHeader _ _ _ | .linScheduleSlot _ | .canTxDone _ | .txExpired _
  | .busOff _ | .busOffRecoveryStart _ | .recover _ | .busOffRecovered _ | .txFlush _ | .txdTimeout _ _
  | .canControllerEnable _ _ | .containerTimeout _ | .tunnelContainerReceive _ | .eventRoutine _ | .kelpieRunEnd
  | .engineFault _ _ _ | .restart _ | .loadCancel | .loadCheckDone | .mboxIn _ _ | .nop _ | .add _ _ _ _
  | .sub _ _ _ _ | .and _ _ _ _ | .or _ _ _ _ | .xor _ _ _ _ | .shl _ _ _ _ | .shr _ _ _ _ | .sar _ _ _ _
  | .slt _ _ _ _ | .sltu _ _ _ _ | .mul _ _ _ _ | .mulhu _ _ _ _ | .addi _ _ _ _ | .andi _ _ _ _ | .ori _ _ _ _
  | .xori _ _ _ _ | .shli _ _ _ _ | .shri _ _ _ _ | .sari _ _ _ _ | .lui _ _ _ | .sltiu _ _ _ _ | .ext _ _ _ _
  | .ins _ _ _ _ | .ld _ _ _ _ | .ldh _ _ _ _ | .ldb _ _ _ _ | .ldbe _ _ _ _ | .st _ _ _ _ | .sth _ _ _ _
  | .stb _ _ _ _ | .stbe _ _ _ _ | .beq _ _ _ _ | .bne _ _ _ _ | .blt _ _ _ _ | .bge _ _ _ _ | .bltu _ _ _ _
  | .bgeu _ _ _ _ | .jmp _ _ | .call _ _ | .ret _ | .loop _ _ _ _ | .halt _ | .cyc _ _ | .fltMatch _ _ _ _
  | .fltWriteState _ _ _ _ | .fwq _ _ _ _ | .cmacGenerate _ _ _ _ _ | .cmacVerify _ _ _ _ _ | .putSend _ _ _ _
  | .putHandoff _ _ _ _ | .get _ _ _ _ | .vrd _ _ | .timeDomain _ _ _ | .timeBeat _ _ | .timeCounter _ _
  | .sysEvent _ _ | .sysRecTrig _ _ | .sysCount _ _ | .sysMboxOut _ _ | .sysBugle _ _ | .applyRate _ _
  | .applyAdj _ _ | .applySet _ _ | .take | .comparatorFire _ | .trigEdge _ | .capEdge _ _ _ | .gptpSync _ _
  | .syncLoss _ | .hifKick _ | .txDataArrival _ _ | .dmaErr _ | .ringReset _ | .hifXwReclaim _ | .flr | .perstN
  | .busMasterEnableClear | .ezsynResponse _ | .winTimeout _ | .winPwePop | .keyStoreUpdate _ | .slotLoadDone _ _
  | .coreFailed _ | .tapRead _ _ | .sectorFlush _ | .sectorWrite _ _ _ | .recTrigger | .announcementReceive _
  | .recFreeze | .rearm | .sleepRequest _ | .forcedSleepRequest _ | .dozeRequest _ | .sleepCancel | .sleepAck
  | .dozeWake | .tc10SleepAck _ | .tc10SleepRequestReceive _ | .prepTimeout | .sleepStop | .sleepCommit | .dDieDown
  | .wakePin _ _ | .canWup _ | .canErr _ | .linWake _ | .tc10Wake _ | .wakeTimer | .vbatReturn | .wakeSequence
  | .bugWakeClr | .brownout | .vbatHigh | .railFail _ | .rail _ | .powerLoss | .inhFault _ | .thermalShutdown _
  | .stagingLockExpiry | .activateCopyDone _ | .activateShepherdRestart | .commitCheckDone | .requestDownload _ _ _
  | .transferData _ _ _ | .requestTransferExit _ | .routineControlActivate _ | .routineControlAbort _ | .ecuReset _
  | .peerLost _ | .peerTtlExpiry _ | .lldpduSend | .clockStop _ | .clockStart _ | .clockMonitorFail _ | .pcieRefLost
  | .clkRstCmd _ | .resetN _ | .powerOn | .shepherdReset _ | .startup _ | .ready | .telSnapTake _ | .telSnapCancel
  | .glbLock | .canBusError _ _ | .noResponse _ | .collision _ | .plcaBeaconsReturn _ | .vbatCrossed _
  | .thermalRecovery _ | .pcieRefReturn | .perstNRelease | .busMasterEnableSet | .shepherdRestartDone
  | .linChannelEnable _ _ | .debugAccess _ _ _ => true

end Sys2Proof
end

