-- ==== Sys2Proof/Tests/Slice0.lean ====
section
/-! SUPPORT. Tests of the definitions: ill-formed commands that WellFormed refuses, concrete states and operands that meet the
hypotheses of the statements, and single steps whose results the manual gives. -/

set_option Elab.async false

open Sys2Proof Sys2Proof.Machine

namespace Sys2Proof.Tests

/-! ### States -/

/-- After READY: every clock running, forwarding on Twin A, Twin B eligible. -/
def ready : State :=
  { (State.reset.setReg .CLK_DOMAIN_STATUS 0xFFFFFFFF).setReg .CLK_GATE 0 with
    clk := { phase := 7 }, bug := { faultN := false },
    twin := { a := { mode := .active, claim := 0xC1, stOk := true }, b := { mode := .standby, claim := 0x80, stOk := true },
              accepted := some false } }

/-- The safe state entered for a cause. -/
def safeOf (cause : Nat) : State :=
  { State.reset with clk := { phase := 7 }, twin := { safe := true, cause } }

/-- An engine in its main routine: k1 = 0x1000, k2 = 3. -/
def engMain : Engine := { run := .main, regM := [(1, 0x1000), (2, 3)] }

/-- After READY with engine `e` as given. -/
def withEng (e : Nat) (g : Engine) : State := ready.setEngine e g

/-- After READY with a register as given. -/
def withReg (r : Reg) (v : Word) (i : Nat := 0) (j : Nat := 0) : State := ready.setReg r v i j

/-- A whole aligned write. -/
def wr (a : BitVec 26) (w : Word) : BusWrite := { addr := a, be := 0xF, dws := 1, data := w }
/-- A whole aligned read. -/
def rd (a : BitVec 26) : BusRead := { addr := a, be := 0xF, dws := 1 }

/-! ### Ill-formed commands -/

theorem test_wf_bus_write : (Instr.registerWrite { addr := 0, be := 0, dws := 0, data := 0 }).wf = false := by decide
theorem test_wf_bus_read : (Instr.rcRegisterRead { addr := 0, be := 0, dws := 0 }).wf = false := by decide
theorem test_wf_counter_offset : (Instr.counterLowRead 4).wf = false := by decide
theorem test_wf_taps : (Instr.coefficientStore 0 ⟨[], 0⟩).wf = false := by decide
theorem test_wf_taps_port : (Instr.coefficientStore 12 ⟨List.replicate 22 0, 0⟩).wf = false := by decide
theorem test_wf_frame : (Instr.frameReceive 0 { bytes := [], stamp := 0 }).wf = false := by decide
theorem test_wf_rx_desc : (Instr.rxDelivery 0 (some [])).wf = false := by decide
theorem test_wf_ring_desc : (Instr.tblRead (.ring 0 0 [] [])).wf = false := by decide
theorem test_wf_ring_data : (Instr.tblRead (.ring 0 0 (List.replicate 8 0) [])).wf = false := by decide
theorem test_wf_batch_rec : (Instr.tblWrite (.batch 0 0 [])).wf = false := by decide
theorem test_wf_can_len : (Instr.canReceive 0 { kind := 0, id := 1, data := List.replicate 9 0 }).wf = false := by decide
theorem test_wf_can_id : (Instr.canReceive 0 { kind := 0, id := 2048, data := [] }).wf = false := by decide
theorem test_wf_fd_len : (Instr.canReceive 0 { kind := 0, fdf := true, id := 1, data := List.replicate 13 0 }).wf = false := by decide
theorem test_wf_xl_len : (Instr.canReceive 0 { kind := 1, id := 1, data := [] }).wf = false := by decide
theorem test_wf_lin_on_can : (Instr.canReceive 0 { kind := 2, id := 1, data := [0] }).wf = false := by decide
theorem test_wf_lin_len : (Instr.linResponseReceive 0 0 ⟨[], 0⟩ .none).wf = false := by decide
theorem test_wf_slab : (Instr.loadGo 0 [{ slab := 0, flag := 0, data := [] }]).wf = false := by decide
theorem test_wf_slab_check : (Instr.beatBoundary { loadSlabs := some [{ slab := 0, flag := 0, data := [] }] }).wf = false := by decide
theorem test_wf_doorbell : (Instr.doorbellPollData [] .data).wf = false := by decide
theorem test_wf_tx_none : (Instr.txDescriptorArrival 0 []).wf = false := by decide
theorem test_wf_tx_words : (Instr.txDescriptorArrival 0 [[]]).wf = false := by decide
theorem test_wf_batch_desc : (Instr.batch 0 0 [] []).wf = false := by decide
theorem test_wf_window : (Instr.winWrite { w := 0, off := 0xFFFFF, bytes := [(0, true), (0, true)], len := 0 }).wf = false := by decide
theorem test_wf_ez_write : (Instr.ezsynRequest { smac := 0, vid := 0, write := true, win := 0, seq := 0, addr := 0, len := 4, payload := [] }).wf = false := by decide
theorem test_wf_key : (Instr.keyImport 0 0 [] [] 0 { core := 0 }).wf = false := by decide
theorem test_wf_can_wake : (Instr.canFrame 0 { kind := 2, id := 1, data := [0] }).wf = false := by decide
theorem test_wf_command : (Instr.save 0 0 [] []).wf = false := by decide
theorem test_wf_tlv : (Instr.lldpTlvReceive 0 0 (List.replicate 512 0) 0).wf = false := by decide +kernel
theorem test_wf_hang : (Instr.hang 2).wf = false := by decide
theorem test_wf_good : (Instr.registerWrite (wr 0x30000 1)).wf = true := by decide

/-- No row of the table gives bits, so a word spells no command. -/
theorem test_decode_none : decodeTableWord 32 0 = none := by decide

/-! ### The queue, the reset and the register map -/

theorem wit_StepRunsFront : ({ ready with pending := [.glbLock, .take] } : State).pending = .glbLock :: [.take] := rfl
theorem wit_EveryCommandCompletes :
    ({ ready with dOn := false } : State).dOn = false ∧ (Instr.take).ofSupply = false := by decide +kernel
theorem wit_HeldInResetKept : State.reset.HeldInReset ∧ ∃ t, step State.reset = .next t := ⟨fun _ => rfl, _, rfl⟩
theorem wit_RegisterMapRoundTrip :
    (31 < (Reg.KEEP_CTR).row.n1 ∧ 0 < (Reg.KEEP_CTR).row.n2) ∧ 23 < (Reg.KEEP_COEF).row.n2 ∧ 0 < (Reg.GLB_LOCK).row.n1 := by
  decide +kernel
theorem wit_IdleStepIsOneClock : State.reset.pending = [] ∧ ({ State.reset with dOn := false } : State).dOn = false := ⟨rfl, rfl⟩
theorem wit_DeviceIdentity :
    ready.dOn = true ∧ ready.hostUp = true ∧ (rd 0).addr.toNat = Reg.GLB_DEVICE_ID.addr 0 0 ∧ (rd 0).be = 0xF := by
  decide +kernel

/-! ### Kelpie engines -/

theorem wit_KelpieArithmetic : Runs (withEng 15 engMain) 15 := by unfold Runs; decide +kernel
theorem wit_KelpieMemory :
    (Runs (withEng 15 engMain) 15 ∧ Loadable 0x1FFC 4 ∧ Loadable 0x4FFE 2 ∧ Loadable 0x4000 1 ∧ Storable 0x1FFC 4 ∧ Storable 0x1FFE 2 ∧
      Storable 0x1FFF 1) ∧
    ¬ Loadable 0x1FFD 4 ∧ ¬ Loadable 0x2000 2 ∧ ¬ Loadable 0x5000 1 ∧ ¬ Storable 0x4000 4 ∧ ¬ Storable 0x1FFF 2 ∧ ¬ Storable 0x2000 1 := by
  unfold Runs Loadable Storable; decide +kernel
theorem wit_KelpieControlFlow :
    Runs (withEng 15 engMain) 15 ∧ engMain.calls.length < 4 ∧
    ({ engMain with callM := [7] } : Engine).calls = 7 :: [] ∧ engMain.loops = [] ∧
    0 < min (engMain.rg 2).toNat (4 : BitVec 10).toNat ∧ 0 = min (engMain.rg 3).toNat (4 : BitVec 10).toNat := by
  unfold Runs; decide +kernel
theorem wit_KelpieCyclesWindowTime :
    Runs (withEng 15 engMain) 15 ∧ roleHas 15 .get = true ∧ (1 : BitVec 8) ≠ 0 ∧ 0x4000 ≤ (0x4FF0 : Word).toNat ∧
    (0x4FF0 : Word).toNat + 16 ≤ 0x5000 ∧ (14 : Fin 16).val % 2 = 0 := by
  unfold Runs; decide +kernel

/-- A classical CAN frame item from CAN0. -/
def canItem : Item := { bytes := List.replicate 32 0 }
/-- Entry 5 of the filter table takes every classical frame of CAN0. -/
def fltEntry : List Word := [0, 0x40000000, 1, 1, 0, 0, 0, 0, 0]
/-- Twin A with that entry, K0 serving an RX item. -/
def withFlt : State :=
  { (withEng 0 { engMain with run := .event 1, item := some canItem }) with
    twin := { ready.twin with a := { ready.twin.a with mem := [(Space.filter.key 5, fltEntry)] } } }

theorem wit_KelpieQueries :
    (Runs withFlt 0 ∧ withFlt.answering = some false ∧ (withFlt.engine 0).frameIn = some canItem ∧
      (withFlt.plane false).fltFind (itemFrame canItem.bytes) (itemSrc canItem.bytes) (itemWire canItem.bytes) = some (5, fltEntry) ∧
      (withFlt.plane true).fltFind (itemFrame canItem.bytes) (itemSrc canItem.bytes) (itemWire canItem.bytes) = none ∧
      0x1000 + 36 ≤ 8192) ∧ withFlt.maskZones 0 < 1 ∧ 0 < withFlt.maskZones 1 := by
  unfold Runs; decide +kernel

/-- K0 with slot 0 READY for CMAC by the engines. -/
def withCmac : State :=
  { withEng 0 engMain with
    cry := { slot := [(0, { st := .ready, attr := { use := 4, engine := true }, key := List.replicate 16 1 })] } }

theorem wit_KelpieCmac :
    (Runs withCmac 0 ∧ (withCmac.slot 0).st = .ready ∧ maskBit (withCmac.slot 0).attr.use 2 = true ∧ (withCmac.slot 0).attr.engine = true ∧
      (withCmac.slot 0).attr.klen = false ∧ withCmac.cmacCore 0 = true ∧ ((withCmac.engine 0).bytes 0x1000 12).length = 12) ∧
    (let g := { engMain with dat := [(0x1008, 17)] }
     fld (leWord (g.bytes 0x1000 12) 8) 0 12 = 17 ∧ 16 * (1 : BitVec 8).toNat < 17 ∧ 17 ≤ 16 * (2 : BitVec 8).toNat ∧
     0 + 17 ≤ 8192 ∧ fld (leWord (g.bytes 0x1000 12) 4) 16 13 + 16 ≤ 8192) ∧
    (withCmac.slot 1).st ≠ .ready := by
  unfold Runs; decide +kernel

/-- K8 answers a hook request of a frame that is gone. -/
def hookEng : Engine := { engMain with run := .event 3, item := some { bytes := [], hook := some { eng := 0, frame := 9, zones := [], rules := [], queued := 0, epoch := 0 } } }

theorem wit_KelpiePutAndVerdict :
    (Runs (withEng 7 engMain) 7 ∧ 0x1000 + 32 + 0 ≤ 8192 ∧ (withEng 7 engMain).twin.safe = false ∧ ((withEng 7 engMain).can 7).busoff = false) ∧
    ((withEng 0 engMain).engine 7).en = true ∧ (engMain.kp &&& 1 = 0) ∧ ({ engMain with kp := 1 } : Engine).kp &&& 1 = 2 ^ 0 ∧
    (Runs (withEng 8 hookEng) 8 ∧ hookEng.run = .event 3 ∧ hookEng.answered = false ∧ (withEng 8 hookEng).heldOf 9 = none) ∧
    ({ hookEng with answered := true } : Engine).answered = true := by
  unfold Runs; decide +kernel

/-- K0 with a 32-byte item for CAN1 in its memory, and with one of 17 bytes of payload. -/
def putEng (len : Byte) : Engine := { engMain with dat := [(0x1008, len), (0x101C, 2)], kp := 6 }

/-- The destinations that a PUT asks, and a PUT longer than 16 × N. -/
theorem wit_KelpiePutAndVerdict_send :
    (let s := withEng 0 (putEng 0)
     let item := (s.engine 0).bytes 0x1000 32
     Runs s 0 ∧ leNat item 28 4 % 2 ^ 28 = 2 ∧ (s.engine 0).kp &&& 2 = 2 ^ (1 : Fin 8).val ∧ s.twin.safe = false ∧
     protoTakes (s.can 1).proto (itemFrame item) = true ∧ (itemFrame item).kind ≠ 1 ∧ (s.can 1).busoff = false ∧ (s.can 1).tx.length < 32 ∧
     ((s.can 1).tx.map (fun x => frameBytes x.frame)).sum + frameBytes (itemFrame item) ≤ 16384 ∧
     (s.engine 7).faulted = false ∧ (s.engine 7).handoff.length < 64) ∧
    (leNat (((putEng 17).bytes 0x1008 2)) 0 2 % 4096 = 17 ∧ 16 * (1 : BitVec 8).toNat < 17 ∧ 0x1000 + 32 + 17 ≤ 8192) := by
  unfold Runs; decide +kernel

theorem wit_KelpieSystemFunctions :
    Runs (withEng 12 { engMain with regM := [(1, 0x21)] }) 12 ∧ fld (0x21 : Word) 0 4 = 1 ∧ fld (0x21 : Word) 4 2 ≠ 0 ∧
    Runs (withEng 15 engMain) 15 ∧ ready.ret.mode = .idle ∧ ({ ready with ret := { mode := .recording } } : State).ret.mode = .recording ∧
    ({ ready with ret := { mode := .frozen } } : State).ret.mode = .frozen := by
  unfold Runs; decide +kernel

/-- An image of the firmware. -/
def shippedImg : Image :=
  { shipped := true, carry := false, entry := [], wcet := [], maxev := [], crc := 0, code := [], dat := [] }

/-- An image of one HALT for K15 (R316), and its acceptance. -/
def haltHead : List Byte :=
  leBytes 0x49504C4B 4 ++ leBytes 1 4 ++ leBytes 0x8000 4 ++ leBytes 1 4 ++ leBytes 0x1000 4 ++ List.replicate 40 0
def haltImage : List Byte := haltHead ++ leBytes (crc32 (haltHead ++ leBytes 0xC8000000 4)).toNat 4 ++ leBytes 0xC8000000 4
theorem wit_KelpieSupervision_image : imgRefusal 15 false haltImage = none := by decide +kernel

/-- After READY a host write to each register with commands of its own is served. -/
theorem wit_Served :
    ([(Reg.KLP_MBOX_IN, 15), (.KLP_ENG_CMD, 15), (.KLP_LOAD_CMD, 0), (.TIME_DOM_CMD, 3), (.TIME_SNAP_CMD, 0), (.TEL_SNAP_CMD, 0), (.GLB_LOCK, 0),
      (.TWIN_SAFE_CTRL, 0), (.CLK_RST_CMD, 0), (.CLK_GATE, 0), (.TWIN_CMD, 0), (.FW_CT_CMD, 0), (.LKP_FDB_CTRL, 0), (.PORT_CTRL, 21),
      (.PORT_FASTLINK_CTRL, 21), (.GW_CAN_CTRL, 7), (.GW_CAN_CMD, 7), (.GW_LIN_CTRL, 3), (.HIF_KICK, 0), (.HIF_XW_RECLAIM, 0),
      (.WIN_PWE_POP, 0), (.REC_CMD, 0), (.BUG_SLEEP_CMD, 0), (.BUG_WAKE_CLR, 0), (.TBL_CMD, 0)] ++ (List.range 70).map ringCmdReg).all
      (fun x => (ready.regRefusal x.1 x.2).isNone) = true ∧ ready.dOn = true ∧ ready.hostUp = true := by decide +kernel

/-- An image of one HALT at word 0, for K0. -/
def userImg : Image := { carry := false, entry := [], wcet := [], maxev := [], crc := 0, code := [], dat := [] }

/-- K0 of the firmware with a frame of CAN0 that no entry matches, and GW_CTRL.EN set. -/
def withRx : State :=
  let s := (withEng 0 { image := some shippedImg }).setReg .GW_CTRL 1
  { s with gw := { can := [(0, { on := true, rx := [{ frame := { kind := 0, id := 1, data := [1] }, at_ := 0 }] })] } }

theorem wit_KelpieSupervision_runs :
    (withRx.mayAdmit 0 = true ∧ ({ image := some shippedImg } : Engine).admits shippedImg 1 = true ∧ withRx.rbit .GW_CTRL 0 = true ∧
      (withRx.rxNext 0).map (fun e => e.1) = some 0 ∧ (withRx.time.cnt - 0).toNat * 32 / 125 < 65535 ∧ withRx.answering = some false ∧
      (withRx.plane false).fltFind { kind := 0, id := 1, data := [1] } 0 0 = none) ∧
    ((withEng 0 { en := false }).mayAdmit 0 = false) ∧
    (({ image := some userImg } : Engine).run = .idle ∧ ({ image := some userImg } : Engine).ended = false ∧
      ({ image := some userImg } : Engine).en = true ∧ (ready.engine 4).image = none) ∧
    (let rq : HookReq := { eng := 3, frame := 9, zones := [], rules := [], queued := 0, epoch := 0 }
     let s : State := { withEng 11 { hookOpen := [rq] } with time := { beat := 16 } }
     (s.engine (8 + (3 : Fin 4))).hookOpen = [rq] ∧ passed (rq.queued + BitVec.ofNat 48 (s.rfld .FW_HOOK_CFG 8 4 3)) s.beat = true ∧
     passed (rq.queued + BitVec.ofNat 48 (s.rfld .FW_HOOK_CFG 8 4 3)) 0 = false) ∧
    (let l : Loader := { state := .check, eng := 15, atBeat := true, beat := 0 }
     passed l.beat ready.beat = true ∧ passed 5 ready.beat = false ∧ l.state = .check) ∧
    ((withEng 15 engMain).engine 15).run ≠ .idle ∧ ready.dmaOk = false := by decide +kernel

theorem wit_KelpieSupervision :
    (ready.clkRuns 2 = true ∧ ready.loader.busy = false ∧ ({ state := .check } : Loader).busy = true ∧
      imgRefusal 0 false [] = some (10, 0) ∧ imgRefusal 7 false [] = some (1, 0)) ∧
    (withEng 7 { image := some shippedImg, handoff := [canItem] }).mayAdmit 7 = true ∧
    ({ image := some shippedImg } : Engine).admits shippedImg 4 = true ∧
    ((List.range 16).all fun k => k == 3 || ((withEng 3 { image := some shippedImg }).engine k).image.isNone) = true := by
  decide +kernel

/-! ### Time -/

theorem wit_TimeCounterRead :
    ready.hostUp = true ∧ (rd 0x900014).addr.toNat = Reg.TIME_CNT_HI.addr 0 0 ∧ ready.stopped 0x900014 = false := by decide +kernel
theorem wit_TimeApplyCommands :
    ready.rbit .TIME_DOM_CFG 0 3 = false ∧ (withReg .TIME_DOM_CFG 1 3).rbit .TIME_DOM_CFG 0 3 = true ∧ bit (1 : Word) 1 = false := by
  decide +kernel
theorem wit_TimeSynchronisation :
    (withReg .TIME_DOM_CFG 1 0).rbit .TIME_DOM_CFG 0 0 = true ∧ ready.clk.shepDown = false ∧
    (let s := ((withReg .TIME_DOM_CFG 1 0).setReg .TIME_PTP_PORT 1 3).setReg .PORT_LINK_STATUS 1 3
     let x : GptpSync := { own := false, port := 3, domainNumber := BitVec.ofNat 8 (s.rfld .TIME_DOM_CFG 8 8 0), priority1 := 0, masters := 0,
                           offset := 1001, gmChange := false, rate := 0 }
     s.ptpTakes 0 x = true ∧ s.ptpTakes 0 { x with domainNumber := x.domainNumber + 1 } = false ∧ 1000 < x.offset.toInt ∧
     3 * 312500000 ≤ ((937500000 : Wide) - (s.domain 0).syncAt).toNat * 2 ^ s.rfld .TIME_DOM_CFG 16 3 0) ∧
    ({ gm := true } : Domain).gm = true := by decide +kernel
theorem wit_SnapshotsAndCaptures :
    (ready.cap 0).fifo = [] ∧ ({ ready with time := { cap := [(7, { fifo := [(5, true)], latch := some 5 })] } } : State).cap 7 =
      { fifo := [(5, true)], latch := some 5 } ∧ bit (2 : Word) 1 = true ∧ bit (1 : Word) 1 = false := by decide +kernel

/-- Comparator 31 enabled on timer 4, whose instant has come; TRIG 15 armed on timer 4; CAP 7 takes both edges. -/
def withTimers : State :=
  { (((withReg .TIME_CMP_CFG 9 31).setReg .TIME_TRIG_CFG 8 15).setReg .TIME_CAP_CFG 7 7) with
    time := { trig := [(15, { armed := true })] } }

theorem wit_TimeComparatorTrigCap :
    (withTimers.rbit .TIME_CMP_CFG 0 31 = true ∧ withTimers.rfld .TIME_CMP_CFG 1 3 31 = 4 ∧ (0 : Int) ≤ withTimers.timer 4) ∧
    (withTimers.timer 4 < ((withTimers.setReg .TIME_CMP_T_LO 9 31).reg64 .TIME_CMP_T_LO .TIME_CMP_T_HI 31 : Int) * 65536) ∧
    ((withTimers.trig 15).armed = true ∧ withTimers.trigTimer 15 ≤ 4 ∧ (withTimers.trig 15).high = false) ∧
    (ready.rbit .TIME_CMP_CFG 0 0 = false ∧ 4 < (withReg .TIME_CMP_CFG 0xB 0).rfld .TIME_CMP_CFG 1 3 0 ∧ (ready.trig 0).armed = false ∧
      ({ armed := true, high := true } : Trig).high = true ∧ ready.rbit .TIME_CAP_CFG 0 0 = false ∧ 16 ≤ (List.replicate 16 ((0 : Wide), true)).length) ∧
    withTimers.rbit .TIME_CAP_CFG 0 7 = true ∧ withTimers.rbit .TIME_CAP_CFG 2 7 = true ∧ (withTimers.cap 7).fifo.length < 16 := by
  decide +kernel

/-! ### Registers -/

/-- Replica (i, j) of a register as a host write meets it that is served and has no effect of its own. -/
def plain (s : State) (r : Reg) (i j : Nat) : Bool :=
  let a := r.addr i j
  decide (a < 2 ^ 26) && Reg.at? (keepAlias a) == some (r, i, j) && (s.writeRefusal a 0xF 1).isNone && !s.partLacks r i &&
    !classLacks r i && !cryReg r && a != Reg.HIF_BAR0_SEQ.addr 0 0

theorem wit_HostWrites :
    (plain ready .TWIN_IRQ_EN 0 0 = true ∧ Reg.TWIN_IRQ_EN.row.acc = .rw ∧ Reg.TWIN_IRQ_EN.row.cfg = false) ∧
    (plain ready .TEL_CTRL 0 0 = true ∧ Reg.TEL_CTRL.row.cfg = true ∧ ready.upd.cfg = none) ∧
    (plain ready .TWIN_EVENT 0 0 = true ∧ Reg.TWIN_EVENT.row.acc = .w1c) ∧
    (plain ready .GLB_LOCK 0 0 = true ∧ Reg.GLB_LOCK.row.acc = .w1s) ∧
    (plain ready .GLB_DEVICE_ID 0 0 = true ∧ Reg.GLB_DEVICE_ID.row.acc = .ro) ∧
    (ready.hif.pwe.length < 64 ∧ reserved 0x3FFFFFC = true) ∧
    (reserved 0x800000 = false ∧ ready.lacks 0x800000 = false ∧ State.reset.stopped 0x800000 = true) ∧
    ((withReg .GLB_LOCK 1).locked 0x400000 = true ∧ (withReg .GLB_LOCK 1).stopped 0x400000 = false ∧ reserved 0x400000 = false) ∧
    (({ ready with hif := { perst := true } } : State).hostUp = false ∧ ready.hostUp = true ∧
      ({ ready with part := .am7220 } : State).lacks (Reg.PORT_CTRL.addr 2 0) = true ∧ reserved (Reg.PORT_CTRL.addr 2 0) = false ∧
      ({ ready with part := .am7220 } : State).regRefusal .PORT_CTRL 2 = some 0 ∧ State.reset.regRefusal .GW_CAN_CTRL 0 = some 3 ∧
      64 ≤ (List.replicate 64 ([] : List Word)).length) := by
  decide +kernel
theorem wit_HostWrites_plain :
    (∀ x w v, writeCmd x .TWIN_IRQ_EN 0 w v = none) ∧ (∀ x w v, writeCmd x .TEL_CTRL 0 w v = none) ∧
    (∀ x w v, writeCmd x .TWIN_EVENT 0 w v = none) ∧ (∀ x w v, writeCmd x .GLB_LOCK 0 w v = none) ∧
    (∀ x w v, writeCmd x .GLB_DEVICE_ID 0 w v = none) :=
  ⟨fun _ _ _ => rfl, fun _ _ _ => rfl, fun _ _ _ => rfl, fun _ _ _ => rfl, fun _ _ _ => rfl⟩
theorem wit_HostReads :
    (191 < Reg.TM_Q_MAX_DEPTH.row.n1 ∧ ready.stopped (Reg.TM_Q_MAX_DEPTH.addr 191 0) = false ∧
      ready.partLacks .TM_Q_MAX_DEPTH 191 = false) ∧
    (reserved 0x3FFFFFC = true ∧ ready.stopped 0x3FFFFFC = false) ∧ ¬ ((2 : BitVec 26).toNat % 4 = 0) ∧
    (0x7FFF8 : BitVec 20).toNat < 0x80000 ∧ (0x1000 : BitVec 20).toNat % 8 = 0 ∧
    (isCounter (Ctr.queue 191 .STALE).off = true ∧ isCounter ((Ctr.queue 191 .STALE).off + 4) = true ∧ (Ctr.queue 191 .STALE).off % 8 = 0) ∧
    ({ ready with hif := { perst := true } } : State).hostUp = false ∧ ready.hostUp = true := by decide +kernel

/-- Every register of an SA, as a host write meets it. -/
def saPlain (s : State) (r : Reg) (i j : Nat) : Bool :=
  let a := r.addr i j
  decide (a < 2 ^ 26) && Reg.at? (keepAlias a) == some (r, i, j) && (s.writeRefusal a 0xF 1).isNone && !s.partLacks r i &&
    a != Reg.HIF_BAR0_SEQ.addr 0 0

theorem wit_SecurityAssociationWrites :
    ([Reg.CRY_TXSA_CFG, .CRY_RXSA_CFG, .CRY_TXSA_SSCI, .CRY_TXSA_SALT0, .CRY_RXSA_SSCI, .CRY_RXSA_SALT2, .CRY_TXSA_NEXT_PN_LO,
      .CRY_TXSA_NEXT_PN_HI].all fun r => saPlain ready r 0 0) = true ∧
    (withReg .CRY_TXSA_CFG 1).rbit .CRY_TXSA_CFG 0 = true ∧ (withReg .CRY_RXSA_CFG 1).rbit .CRY_RXSA_CFG 0 = true ∧
    ready.rbit .CRY_TXSA_CFG 0 = false := by decide +kernel
theorem wit_LockDebugAndHangs :
    (ready.rbit .GLB_LOCK 0 = false ∧ (ready.setReg .GLB_LOCK 1).rbit .GLB_LOCK 0 = true ∧ ready.clk.hung.length < 4 ∧ reserved 0x3FFFFFC = true ∧ ready.stopped 0x3FFFFFC = false) ∧
    (State.reset.stopped 0x800000 = true ∧ State.reset.lacks 0x800000 = false) ∧
    (plain ready .TWIN_IRQ_EN 0 0 = true ∧ ready.stopped (Reg.TWIN_IRQ_EN.addr 0 0) = false) ∧
    4 ≤ [(0, some 0, 0), (4, none, 0), (8, none, 0), ((12 : Nat), (none : Option Word), (0 : Wide))].length ∧
    312500 ≤ ((312500 : Wide) - 0).toNat := by decide +kernel

/-! ### The safe state, resets and clocks -/

theorem wit_SafeState :
    (ready.dOn = true ∧ ready.twin.safe = false ∧ ready.clk.phase = 7 ∧ fld (0xC1EA : Word) 0 16 = 0xC1EA ∧ bit (0xC1EA : Word) 16 = false ∧
      ready.monArmed 0 = true ∧ ready.monArmed 21 = true ∧ State.reset.monArmed 21 = false ∧ State.reset.clk.phase < 7 ∧ fld (0 : Word) 0 16 ≠ 0xC1EA ∧
      ({ ready with clk := { ready.clk with shepBeat := some 0 } } : State).lockstepAgain = true) ∧
    ((safeOf 5).twin.safe = true ∧ (safeOf 5).twin.leaving = false ∧ bit (0x1C1EA : Word) 17 = false ∧
      ((safeOf 3).setReg .CLK_MON_STATUS 0).monitorsOk = false ∧
      (((safeOf 3).setReg .CLK_MON_STATUS 0x003F3F07).setReg .BUG_RAIL_STATUS 0x1F).monitorsOk = true) ∧
    ({ safeOf 3 with twin := { (safeOf 3).twin with leaving := true } } : State).twin.leaving = true := by decide +kernel
theorem wit_ResetLevels :
    ((ready.twin.safe && ready.twin.cause == 5) = false ∧ ({ ready.clk with shepDown := true } : Clocks).shepDown = true) ∧
    (ready.lockstepAgain = false ∧ ready.clk.shepDown = false ∧ State.reset.shepUp = false ∧ ready.bug.power ≠ .off) ∧
    (ready.clk.rstAt = none ∧ fld (0x1B007 : Word) 0 16 = 0xB007 ∧ bit (0x1B007 : Word) 16 = true ∧ bit (0xB007 : Word) 16 = false) ∧
    ready.shepUp = true ∧
    (({ State.reset with dOn := false, clk := { resetN := false }, bug := { power := .doze } } : State).clk.resetN = false) ∧
    ({ State.reset with bug := { power := .off } } : State).bug.power = .off := by decide +kernel


theorem wit_ClocksAndStart :
    (ready.reg .CLK_GATE = 0 ∧ ready.hasGate 12 = true ∧ ready.clkUsed 12 = false ∧
      (withReg .GW_LIN_CTRL 1 3).clkUsed 12 = true ∧
      (12 ∈ gateBits ∧ (withReg .CLK_GATE 0x1000).rbit .CLK_GATE 12 = true) ∧ ready.clk.hung = [] ∧ ready.clk.pcieRef = true) ∧
    (State.reset.clk.phase = 1 ∧ ready.clk.phase ≠ 1) ∧
    (({ State.reset with clk := { phase := 6 } } : State).twin.safe = false ∧ ({ phase := 6, doubt := 2 } : Clocks).doubt ≠ 0) ∧
    (({ State.reset.setReg .UPD_FW_SVN 5 with clk := { phase := 6 }, upd := { startKind := 1 } } : State).reg .KEEP_CTR 0 <
      (State.reset.setReg .UPD_FW_SVN 5).reg .UPD_FW_SVN) := by
  decide +kernel
theorem wit_ClocksAndStart_slots :
    (bootChoose (bootCopy (keepPhase State.reset.quiet { mainValid := false, priorValid := false }) { mainValid := false, priorValid := false })
      { mainValid := false, priorValid := false }).1 = none ∧
    State.reset.keepFails {} = false ∧ State.reset.keepFails { keepOk := false } = true := by decide +kernel

/-- R490: a retired-cell entry with an uncorrectable error is invalid, and a counter takes its mirror value (R465). -/
theorem test_keep_word_ecc :
    (keepWord (State.reset.setReg .KEEP_RETIRED 0x80000123 3) .KEEP_RETIRED 3 0 0x2124C).reg .KEEP_RETIRED 3 = 0 ∧
    (keepWord (ctrInc State.reset 20) .KEEP_CTR 20 0 0x211F0).reg .KEEP_CTR 20 = 1 ∧
    (keepWord State.reset .BUG_INH_CFG 0 0 0x20110).reg .BUG_INH_CFG = 0x1313 ∧
    State.reset.keepFails { keepEcc := [0x21184] } = true := by decide +kernel

/-- The image as shipped in MAIN, whose bytes the model leaves free, is chosen whatever its SVN is. -/
theorem wit_ClocksAndStart_chosen :
    (bootChoose (bootCopy (keepPhase State.reset.quiet {}) {}) {}).1.isSome = true := by
  have hk : ∀ s : State, s.rbit .KEEP_BOOT 0 = false → s.upd.isShipped 0 = true → s.reg .KEEP_CTR 0 = 0 →
      (bootChoose s {}).1.isSome = true := by
    intro s h0 h1 h2
    simp [bootChoose, h0, judgeSlot, h1, h2]
  refine hk _ ?_ ?_ ?_ <;> decide +kernel

/-! ### Planes and tables -/

/-- After READY with a memory of the ACTIVE plane. -/
def withMem (mem : SMap (List Word)) : State := { ready with twin := { ready.twin with a := { ready.twin.a with mem } } }

/-- After READY with Twin B in a state. -/
def withB (m : PlaneMode) : State := { ready with twin := { ready.twin with b := { ready.twin.b with mode := m } } }

theorem wit_TwinPlanes :
    ((ready.plane false).mode = .active ∧ (ready.plane true).mode = .standby ∧ (ready.plane true).giveUps.length < 3 ∧ ready.upd.act ≠ 4 ∧
      (withB .selftest).plane true ≠ ready.plane true ∧ ((withB .failed).plane true).mode = .failed ∧
      (withB .failed).eligibleStandby true = false) ∧
    (ready.twin.accepted = some false ∧ ready.eligibleStandby true = true) ∧
    (((withB .selftest).plane true).mode = .selftest ∧ (withB .selftest).twin.safe = false ∧ maskBit (withB .selftest).bug.dozed 36 = false) ∧
    ((withB .resync).actId = some false ∧ ((withB .resync).plane true).mode = .resync) ∧
    (let c : TblCmd := { src := .reg 0x21, beat := 0, code := 0, undo := [] }
     let u : State := { ready with twin := { ready.twin with cmds := [c] } }
     u.twin.cmds.getLast? = some c ∧ c.src = .reg 0x21 ∧ c.gone = false ∧ u.eligibleStandby true = true ∧ (u.plane true).eccBeat ≠ some u.beat) ∧
    (ready.actId = some false ∧ ({ ready with twin := { ready.twin with accepted := none, switch := .gap false } } : State).actId = none ∧
      ({ ready.twin.b with eccBeat := some ready.beat } : Plane).eccBeat = some ready.beat ∧ GiveUpCause.canary ≠ .ecc ∧
      (withB .selftest).actId ≠ some true ∧ (withB .selftest).follower = none ∧
      65536 < recBytes (List.replicate 4096 { parts := [], exact := true, bytes := 17, beat := 0, cmd := false })) ∧
    ready.follower = some true ∧ recBytes ready.twin.exactQ ≤ 65536 := by decide +kernel

/-- An entry aged at tick 36, a static one and a multicast one. -/
def agedState : State := { ready with time := { beat := 36 * 2 ^ 20 } }
theorem wit_AgedEntries :
    (agedState.rfld .LKP_AGE_CFG 0 8 = 36 ∧ bit (wd [0, 0x10000000, 0] 1) 29 = false ∧ agedState.aged [0, 0x10000000, 0] = true ∧
      agedState.aged [0, 0x10000000, 0x00200000] = false) ∧
    bit (wd [0, 0x30000000, 0] 1) 29 = true ∧ bit (wd [0, 0x50000000, 0] 1) 30 = true ∧
    (agedState.setReg .LKP_AGE_CFG 0).rfld .LKP_AGE_CFG 0 8 = 0 := by decide +kernel

/-- A route 10.0.0.0/8 in row 5, and one 10.1.0.0/16 in row 4. -/
def rt8 : List Word := [0x0A000000, 0, 0, 0, 0x208, 0, 0, 0]
def rt16 : List Word := [0x0A010000, 0, 0, 0, 0x210, 0, 0, 0]
def withRoutes : State := withMem [(Space.route.key 4, rt16), (Space.route.key 5, rt8)]

/-- After READY with TBL_INDEX and TBL_DATA as given. -/
def withTbl (s : State) (index : Word) (data : List Word) : State :=
  (data.zipIdx 0).foldl (fun s e => s.setReg .TBL_DATA e.1 e.2) (s.setReg .TBL_INDEX index)

theorem wit_TableReadsAndSearches :
    (TblStarts ready (.reg 0x20) 1 ∧ ready.actId.isSome = true ∧ (issued (withTbl ready 4095 []) (.reg 0x20) 1).idx < ready.tblSize 2 ∧
      (issued ready (.reg 0xF0) 1).table = 15 ∧ ready.tblSize 15 = 0 ∧ ready.tblSize 2 ≤ (issued (withTbl ready 4096 []) (.reg 0x20) 1).idx) ∧
    (TblStarts withRoutes (.reg 0x40) 5 ∧ withRoutes.keyFind 4 rt8 = some 5 ∧
      (issued (withTbl withRoutes 0 rt8) (.reg 0x40) 5).data.take 8 = rt8 ∧ ready.keyFind 4 rt8 = none ∧ ready.keyFind 0 [1, 0, 0] = none ∧
      (issued ready (.reg 0x20) 5).table = 2 ∧ (issued ready (.reg 0x10) 5).table = 1) ∧
    SMap.wf [] withRoutes.act.mem = true ∧ (issued ready (.reg 0x20) 6).table = 2 := by
  simp only [TblStarts, Served]; decide +kernel

/-- An FDB entry of P3, learned: MAC 1, FID 0. -/
def fdb1 : List Word := [1, 0x10000000, 3]

theorem wit_TableWrites :
    ((issued (withTbl ready 4095 []) (.reg 0x20) 2).table = 2 ∧ (issued (withTbl ready 4095 []) (.reg 0x20) 2).idx < 4096 ∧
      (issued (withTbl ready 1023 []) (.reg 0x30) 2).idx < 1024 ∧ ready.tblSize 3 ≤ (issued (withTbl ready 1024 []) (.reg 0x30) 2).idx) ∧
    (rtValid rt8 = true ∧ rtBad rt8 = false ∧ withRoutes.rtFind rt8 = some 5 ∧ bit (issued ready (.reg 0x140) 3).cmd 8 = true ∧
      bit (issued ready (.reg 0x40) 3).cmd 8 = false) ∧
    (fdbValid fdb1 = true ∧ fdbBad fdb1 = false ∧ ready.fdbFind (fdbFid fdb1) (fdbMac fdb1) = none ∧
      ((ready.fdbTab 0).free? ready.act ((ready.fdbTab 0).at 0 (ready.fdbForm fdb1)) 4).isSome = true) ∧
    (bit (issued ready (.reg 0x220) 4).cmd 9 = true ∧ (issued ready (.reg 0x220) 4).idx < ready.tblSize 2 ∧
      withRoutes.keyFind 4 rt8 = some 5 ∧ ready.keyFind 4 rt8 = none) ∧
    TblStarts ready (.reg 0x20) 2 := by
  simp only [TblStarts, Served]; decide +kernel

/-- A rule and a filter entry that are refused, entries that stand, and the other conditions of TableWrites. -/
theorem wit_TableWrites_more :
    ((issued (withTbl ready 3 []) (.reg 0) 2).idx = 3 ∧ ready.act.migrating = false ∧ fdbBad [1, 0x10000000, 31] = true ∧
      (let i := (ready.fdbTab 0).at 0 fdb1; ready.fdbStash ≤ i ∨ i / 4 = (ready.fdbTab 0).at 0 fdb1 / 4) ∧
      (List.range 3).any (fun k => ! (ready.fdbStash ≤ 4 * k || k == (ready.fdbTab 0).at 0 fdb1 / 4 || k == (ready.fdbTab 0).at 1 fdb1 / 4)) = true ∧
      fdbValid [] = false) ∧
    (rtBad [0x0A000001, 0, 0, 0, 0x208, 0, 0, 0] = true ∧ ready.rtOrder 4095 4095 rt8 = true ∧ withRoutes.rtOrder 0 0 rt8 = false ∧ rtValid [] = false) ∧
    (ready.bankBusy = false ∧ ({ ready with ruleCopy := 3 } : State).bankBusy = true ∧ ruleBad (List.replicate 16 0) = false ∧
      ruleBad (List.replicate 16 0xFFFFFFFF) = true ∧ (issued (withTbl ready 2047 []) (.reg 0x50) 2).idx = 2047) ∧
    ((issued (withTbl ready 8191 []) (.reg 0x60) 2).idx = 8191 ∧ ctValid (wsetFld (List.replicate 11 0) 9 17 1 1) = true ∧ ctValid [] = false) ∧
    (fltBad fltEntry = false ∧ fltBad (List.replicate 9 0xFFFFFFFF) = true ∧ bit (issued ready (.reg 0x470) 2).cmd 10 = true) ∧
    (let e := ready.fdbForm [2, 0x10000000, 3]
     let full := withMem (((ready.fdbTab 0).cands e ++ (ready.fdbTab 0).cands [1, 0x30000000, 3]).foldl (fun m k => SMap.set [] m (Space.fdb.key k) [1, 0x30000000, 3]) [])
     ((full.fdbTab 0).place full.act (full.fdbForm [2, 0x10000000, 3]) true).isNone = true) ∧
    ready.tblSize 15 = 0 := by decide +kernel

theorem wit_TableFlushMoveSeeds :
    (fld (issued (withTbl ready 23 []) (.reg 0) 7).index 0 5 = 23 ∧ ready.genFull 23 = false ∧
      ({ ready with twin := { ready.twin with a := { ready.twin.a with genOut := [(23, 15)] } } } : State).genFull 23 = true) ∧
    ((issued (withTbl withRoutes 0x60005 []) (.reg 0x40) 8).idx = 5 ∧ fld (issued (withTbl withRoutes 0x60005 []) (.reg 0x40) 8).index 16 16 = 6 ∧
      rtValid (withRoutes.tget .route 6) = false ∧ rtValid (withRoutes.tget .route 5) = true ∧
      withRoutes.rtOrder 6 5 (withRoutes.tget .route 5) = true ∧ withRoutes.rtOrder 0 5 (withRoutes.tget .route 5) = false) ∧
    ((issued ready (.reg 0x10) 9).table = 1 ∧ ready.act.ents .stream = [] ∧ strValid [0, 0, 0, 0, 0, 0, 0x04000000] = true ∧
      ((withMem [(Space.stream.key 9, [0, 0, 0, 0, 0, 0, 0x04000000])]).act.ents .stream).length = 1) ∧
    ((issued ready (.reg 0) 9).table = 0 ∧ (issued ready (.reg 0x20) 9).table = 2 ∧ ({ ready with part := .am7220 } : State).part = .am7220 ∧
      (withMem [(Space.seed.key 4, [2])]).act.migrating = true) := by decide +kernel

/-! ### Command rings -/

/-- Host memory is reached: BME, and 256 slabs. -/
def withHost : State := { (((ready.setReg .HIF_CTRL 1).setReg .HIF_XW_CFG 256)) with hif := { bme := true } }
/-- Command ring 1 enabled with 16 entries, of which descriptor 0 may be fetched. -/
def withCmd (s : State) : State :=
  let s := s.setReg .HIF_CMR_CFG 0x14 1
  { s with hif := { s.hif with ring := [(65, { known := 1 })] } }
/-- A command descriptor: OWN, class and operation, then INDEX and ARG. -/
def cmdD (cls op : Nat) (index arg : Word := 0) : List Word := wsetFld (cmdDesc (List.replicate 8 0) cls op) 0 31 1 1 |>.set 1 index |>.set 2 arg
/-- A slab that the device owns. -/
def slab0 : SlabRead := { slab := 0, flag := 1, data := [] }

theorem wit_commands :
    (CmdStarts (withCmd withHost) 1 0 (cmdD 1 1) ∧ CmdStarts (withCmd withHost) 1 0 (cmdD 2 6) ∧ CmdStarts (withCmd withHost) 1 0 (cmdD 3 7)) ∧
    TblStarts (withCmd withHost) (.ring 1 0 (cmdD 0 1) (List.replicate 16 0)) 1 := by
  unfold CmdStarts TblStarts; decide +kernel

theorem wit_BatchesAndCompletion :
    ((withCmd withHost).cmdOpen 1 0 (cmdD 4 0 0 0x10000) = true ∧ cmdBad (cmdD 4 0 0 0x10000) = false ∧ wfld (cmdD 4 0 0 0x10000) 2 16 7 = 1 ∧
      wfld (cmdD 4 0 0 0x10000) 2 23 9 = 0 ∧ [slab0].map (·.slab) = (List.range 1).map (wfld (cmdD 4 0 0 0x10000) 2 0 16 + ·) ∧
      ([slab0].all fun b => (withCmd withHost).slabOk b.slab b.flag) = true ∧ batchRecs withHost [slab0] = [] ∧ ready.twin.cmds = []) ∧
    ((batchRecs withHost [{ slab0 with data := [0x21] }]).length = 1 ∧ (recOp [0x21]).op = 1 ∧ withHost.twin.wrCmds = 0 ∧ withHost.twin.sliceEnd = false) ∧
    ((safeOf 3).twin.safe = true ∧ ready.twin.safe = false ∧ ready.actId.isSome = true) ∧
    (let u : State := { ready with twin := { ready.twin with windowDone := true, cmds := [{ src := .reg 0x21, beat := 0, code := 5, undo := [] }] } }
     u.cmdHeld { src := .reg 0x21, beat := 0, code := 5, undo := [] } = true) := by decide +kernel

theorem wit_PlaneQueues :
    (ready.genFull 24 = false ∧ ({ ready with twin := { ready.twin with a := { ready.twin.a with genOut := [(24, 15)] } } } : State).genFull 24 = true) ∧
    (let e := fdb1; fdbValid e = true ∧ fdbFid e = 0 ∧ fdbMac e = 1 ∧ fdbValid [] = false) ∧
    (ready.act.refreshQ = [] ∧ (let r : Refresh := { slot := 5, fid := 0, mac := 1, tick := 3 }
      let s : State := { withMem [(Space.fdb.key 5, fdb1)] with twin := { (withMem [(Space.fdb.key 5, fdb1)]).twin with
        sliceEnd := true, a := { (withMem [(Space.fdb.key 5, fdb1)]).twin.a with refreshQ := [r] } } }
      (sliceClose s.quiet).act.refreshQ = [r] ∧ fdbValid ((sliceClose s.quiet).tget .fdb 5) = true ∧ fdbMac ((sliceClose s.quiet).tget .fdb 5) = r.mac)) ∧
    (ctValid (wsetFld (List.replicate 11 0) 9 17 1 1) = true ∧ wnum (ctKey (wsetFld (List.replicate 11 0) 9 17 1 1)) 0 10 = 0 ∧ ctValid [] = false) ∧
    (ready.act.strLast ≠ some ready.beat ∧ ({ strSweep := some 63, strLast := some 0 } : Plane).strSweep = some 63 ∧
      ready.rfld .LKP_STREAM_SWEEP 0 24 ≤ ((2 ^ 24 : Beat) - ready.act.strBase).toNat ∧ ¬ (withReg .LKP_STREAM_SWEEP 5).rfld .LKP_STREAM_SWEEP 0 24 ≤ ((4 : Beat) - 0).toNat) ∧
    (({ ready with twin := { ready.twin with accepted := none, switch := .gap false } } : State).actId = none) := by decide +kernel

theorem wit_BeatAndCleaning :
    (ready.resetDue = false ∧ ready.time.resync = false ∧ ({ ready with clk := { ready.clk with rstAt := some 0 } } : State).resetDue = true ∧
      ready.audit = 0) ∧
    (2 ^ 17 ≤ ((2 ^ 17 : Beat) - 0).toNat ∧ ((2 ^ 17 - 1 : Beat) - 0).toNat < 2 ^ 17 ∧
      (({ ready with pics := [(picKey 191 4095, { num := 1, drops := [], last := 0 })] } : State).pic 191 4095).isSome = true ∧ ready.copies = []) ∧
    ready.reg .KEEP_CTR 31 ≠ 0xFFFFFFFF ∧ ready.gw.renewing = false ∧ ({ renewing := true } : Gateway).renewed = false ∧
    ({ ready with time := { resync := true } } : State).resetDue = false ∧ ready.hostUp = true := by decide +kernel

/-! ### Ports and frames -/

/-- A copy of 60 bytes for a port and class. -/
def copyOf (id port tc : Nat) (phase : Phase) (bytes : List Byte := List.replicate 60 0) : Copy :=
  { id, frame := 1, inPort := 0, src := .mac, port, tc, bytes, len := bytes.length, desc := 0, cell := 0, picture := false, eop := false,
    tap := [], yellow := false, stream := none, fresh := 0, track := none, phase, enq := 0, pic := none, first := false, tsReq := false,
    rxStamp := none, arrive := 0, seq := 0 }
/-- A held frame of 60 bytes from P19. -/
def heldOf (key : Option (List Byte)) : Held :=
  { id := 1, port := 19, src := .mac, bytes := List.replicate 60 0, wire := 64, stamp := none, arrive := 0, tsReq := false, blocks := 1,
    key, bank := 0, video := none, marks := [], dec := none, waits := 0, track := none, admitted := false, direct := none, denied := [], old := [] }
/-- After READY with port `n` up and as given. -/
def withPort (n : Nat) (p : PortSt) : State := (withReg .PORT_LINK_STATUS 1 n).setPort n p
/-- A good received frame of 64 bytes, and one with a bad FCS. -/
def rxGood : RxFrame := { bytes := List.replicate 64 0, stamp := 0 }
def rxBad : RxFrame := { bytes := List.replicate 64 0, stamp := 0, fcsErr := true }

theorem wit_PortControl :
    (ready.hasPort 21 = true ∧ ready.clkRuns (portClk 21) = true ∧ ready.rbit .PORT_CTRL 0 21 = false ∧ ready.up 21 = false) ∧
    ((withPort 21 {}).up 21 = true ∧ ((withPort 21 {}).port 21).cur = none ∧ ((withPort 21 {}).setReg .BUF_PORT_HOLD 5 21).rfld .BUF_PORT_HOLD 0 16 21 ≠ 0) ∧
    (withReg .PORT_CTRL 1 21).rbit .PORT_CTRL 0 21 = true ∧ (withReg .PORT_CTRL 1 21).up 21 = false ∧
    ({ ready with part := .am7220 } : State).hasPort 4 = true := by decide +kernel

/-- P8 started at its default speed, its link down. -/
def p8 : State := ready.setPort 8 { started := true }

theorem wit_LinksAndMedia :
    (p8.up 8 = false ∧ (p8.port 8).started = true ∧ p8.rbit .PORT_LINK_STATUS 7 8 = false ∧ defaultSpeed 8 ≠ 0 ∧
      speedOk 8 false (defaultSpeed 8) = true) ∧
    ((withPort 8 {}).up 8 = true ∧ ((withPort 8 {}).port 8).cur = none ∧ ((withPort 8 {}).setReg .BUF_PORT_HOLD 5 8).rfld .BUF_PORT_HOLD 0 16 8 ≠ 0 ∧
      ((withPort 8 {}).setReg .BUF_PORT_HOLD 0 8).rfld .BUF_PORT_HOLD 0 16 8 = 0) ∧
    (passed ((3 : Beat) + BitVec.ofNat 48 5) 8 = true ∧ passed ((3 : Beat) + BitVec.ofNat 48 5) 7 = false) ∧
    (let s := (ready.setPort 8 { hold := .held 3 }).setReg .BUF_PORT_HOLD 5 8
     (s.port 8).hold = .held 3 ∧ (s.port 8).cur = none ∧ s.copies = [] ∧ s.up 8 = false ∧ s.genFull 8 = false ∧
     (copyOf 4 8 7 .linked).port = 8 ∧ (copyOf 4 8 7 .linked).phase = .linked) ∧
    (let s : State := { ready.setPort 8 { train := .refresh, trainAt := 0 } with time := { cnt := 2 ^ 40 } }
     (s.port 8).train = .refresh ∧ s.refreshOver 8 (s.port 8).trainAt = true ∧ s.refreshOver 8 s.time.cnt = false) ∧
    ((withPort 8 { cur := some 4 }).port 8).cur = some 4 ∧
    (ready.hasPort 21 = true ∧ ({ ready with part := .am7220 } : State).hasPort 2 = false ∧ ((withPort 11 {}).port 11).stored = false ∧
      (withPort 11 {}).up 11 = true ∧ (withReg .PORT_FASTLINK_CFG 0x100 11).rbit .PORT_FASTLINK_CFG 8 11 = true ∧ 125000 ≤ ((125000 : Beat) - 0).toNat) ∧
    ((withReg .PORT_PLCA_CFG 0x11 19).plcaFollower 19 = true ∧ (withReg .PORT_PLCA_CFG 0x11 19).up 19 = false ∧
      (((withReg .PORT_PLCA_CFG 0x11 19).setReg .PORT_LINK_STATUS 1 19).setReg .PORT_PLCA_STATUS 1 19).pst 19 = true) ∧
    (ready.plcaFollower 19 = false ∧ ((withPort 19 { cur := some 7 }).port 19).attempts + 1 < 16 ∧ portClass 15 ≠ .m) ∧
    (portClass 19 = .m ∧ (withPort 19 { cur := some 7, attempts := 15 }).pst 19 = false ∧
      16 ≤ ((withPort 19 { cur := some 7, attempts := 15 }).port 19).attempts + 1) := by decide +kernel

/-- P19 up, with a held frame. -/
def withHeld (key : Option (List Byte)) : State := { withPort 19 { started := true } with held := [heldOf key] }

theorem wit_ReceptionAndDecision :
    ((withPort 19 { started := true }).up 19 = true ∧ (withPort 19 { started := true }).macDiscard 19 rxBad = some .FCS_ERR ∧
      (withPort 19 { started := true }).macDiscard 19 rxGood = none ∧ secyOf 19 = none ∧ (withPort 19 {}).holdRoom 19 1 = true ∧
      (withPort 19 {}).holdRoom 19 100000 = false ∧ State.reset.clk.phase < 7 ∧ (ready.port 19).started = false) ∧
    (({ withHeld none with twin := { ready.twin with accepted := none } } : State).twin.accepted = none ∧ (withHeld none).heldOf 2 = none ∧
      ({ withHeld none with twin := { ready.twin with sliceEnd := true } } : State).twin.sliceEnd = true ∧
      ({ heldOf none with admitted := true } : Held).admitted = true) ∧
    ((withHeld none).heldOf 1 = some (heldOf none) ∧ (heldOf none).key = none ∧ (withHeld none).twin.accepted.isSome = true ∧
      srcTracked (heldOf none).src = false ∧ (withB .failed).twin.accepted.isSome = true) ∧
    ((heldOf (some (List.replicate 64 0))).key = some (List.replicate 64 0) ∧ (heldOf none).bank = ready.graphEpoch ∧
      (tableSteps (withHeld none) (heldOf none) (List.replicate 64 0)).1.isLeft = true) := by decide +kernel

/-- After READY with one copy. -/
def withCopy (c : Copy) : State := { ready with copies := [c] }

theorem wit_CopyWriteAndLink :
    ((withCopy (copyOf 4 23 7 .pending)).copyOf 4 = some (copyOf 4 23 7 .pending) ∧ (copyOf 4 23 7 .pending).first = false) ∧
    ((withCopy (copyOf 4 23 7 .written)).copyOf 4 = some (copyOf 4 23 7 .written) ∧ (withCopy (copyOf 4 23 7 .written)).twin.accepted.isSome = true ∧
      ((withCopy (copyOf 4 23 7 .written)).copies.any (fun x => queueNo x.port x.tc == 191 && decide (x.seq < 0))) = false) ∧
    (∀ x ∈ (withCopy (copyOf 4 23 7 .pending)).copies, x.phase = .pending → (copyOf 4 23 7 .pending).seq ≤ x.seq) ∧ ready.copyOf 4 = none ∧
    ({ ready with twin := { ready.twin with accepted := none } } : State).twin.accepted = none := by
  decide +kernel

/-- P8 up with a copy linked on its queue of class 7 for longer than the pipeline takes, and one on the wire. -/
def withHead : State :=
  { withPort 8 { started := true } with copies := [copyOf 4 8 7 .linked], queues := [(71, { list := [4] })], time := { cnt := 200 } }
def withSent (n : Nat) : State := { withPort n { started := true, cur := some 4 } with copies := [copyOf 4 n 7 .sending] }

theorem wit_Transmission :
    (withHead.macFree 8 = true ∧ (withHead.quiet.choice 8).isSome = true ∧ secyOf 8 = none ∧ (withPort 8 { started := true }).macFree 8 = true ∧
      ((withPort 8 { started := true }).quiet.choice 8).isNone = true ∧ (withSent 8).macFree 8 = false) ∧
    (((withSent 8).port 8).cur = some 4 ∧ (withSent 8).copyOf 4 = some (copyOf 4 8 7 .sending) ∧ ((withSent 8).port 8).loopback = 0 ∧
      tunnelCopy (copyOf 4 23 7 .sending).bytes = false) ∧
    (let s : State := { withPort 22 {} with copies := [copyOf 4 22 7 .linked], queues := [(183, { list := [4] })], time := { cnt := 200 } }
     s.macFree 22 = true ∧ (s.quiet.choice 22).isSome = true ∧ s.rxBufs (s.rxRing (copyOf 4 22 7 .linked)) = 0) ∧
    (ready.rbit .TM_Q_SCHED 16 0 = false ∧ (71 : Fin 192).val / 8 ≠ 22 ∧ (ready.port 21).gate.en = false ∧ (ready.port 8).cur = none) ∧
    ((withHead.setReg .TM_Q_SCHED 0x10000 71).rbit .TM_Q_SCHED 16 71 = true ∧
      (0 : Int) ≤ ((accrue (withHead.setReg .TM_Q_SCHED 0x10000 71) 71).queue 71).credit ∧
      ((accrue (withHead.setReg .TM_Q_SCHED 0x10000 71) 71).choice 8).isSome = true) ∧
    (let p : PortSt := { gate := { en := true, len := 2, cycle := 1, ents := [(255, 10), (255, 10)] } }
     p.gate.en = true ∧ p.gateEnt + 1 < p.segs.length ∧ p.segs.length ≤ 1 + 1 ∧ passed p.cycleEnd 1 = true ∧ (p.entEnd 0 : Int) ≤ 8000) := by
  decide +kernel

theorem wit_HostDelivery :
    let s : State := { (withHost.setReg .HIF_RXR_CFG 0x14 0).setPort 22 { cur := some 4 } with copies := [copyOf 4 22 0 .sending] }
    let s : State := { s with hif := { s.hif with ring := [(32, { known := 1 })] } }
    ((s.port 22).cur = some 4 ∧ s.copyOf 4 = some (copyOf 4 22 0 .sending) ∧ s.rxRing (copyOf 4 22 0 .sending) = 0 ∧ s.rxBufs 0 ≠ 0 ∧
      bit (wd [0, 0, 0x80000040] 2) 31 = true) ∧
    bit (wd [0, 0, 0x40] 2) 31 = false ∧ s.rbit .HIF_RXR_CFG 14 0 = false := by decide +kernel

/-! ### The legacy gateway -/

/-- A classical CAN frame. -/
def can1 : BusFrame := { kind := 0, id := 1, data := [0xAA] }
/-- CAN7 as given. -/
def withCan (v : Can) : State := (withReg .GW_CAN_CTRL 1 7).setCan 7 v

theorem wit_CanControllers :
    (ready.clkRuns 12 = true ∧ ready.rbit .GW_CAN_CTRL 0 7 = false ∧ ready.canBad 7 0 = false ∧
      ready.canBad 7 3 = true ∧ (withReg .GW_CAN_CTRL 1 7).rbit .GW_CAN_CTRL 0 7 = true) ∧
    (let v : Can := { on := true, ctrl := 0x110, busoff := true, offAt := 0, recovering := true }
     v.busoff = true ∧ bit v.ctrl 4 = true ∧ fld v.ctrl 8 8 * 312500 ≤ ((312500 : Wide) - v.offAt).toNat ∧ v.recovering = true ∧
     bit ({ on := true, ctrl := 1 } : Can).ctrl 4 = false ∧ 255 < ({ on := true, tec := 256 } : Can).tec ∧ bit (0x41 : Word) 6 = true) ∧
    ((withCan { on := true }).canHears 7 = true ∧ protoTakes 1 can1 = true ∧ (withCan { on := true }).canRoom 7 can1 = true ∧
      (withCan { on := true, rx := List.replicate 64 { frame := can1, at_ := 0 } }).canRoom 7 can1 = false ∧ ready.canHears 7 = false) ∧
    ((withCan { on := true, tx := [{ frame := can1, beat := 0 }] }).canSends 7 = true ∧
      (withCan { on := true, tx := [{ frame := can1, beat := 0 }] }).canOffer 7 = some { frame := can1, beat := 0 } ∧
      (withCan { on := true }).canOffer 7 = none ∧ bit ({ on := true } : Can).ctrl 6 = false ∧ ready.canSends 7 = false) := by decide +kernel

theorem wit_LinTraffic :
    (ready.clkRuns 12 = true ∧ ready.rbit .GW_LIN_CTRL 0 3 = false ∧ bit (0x103 : Word) 1 = true) ∧
    (let v : Lin := { on := true, ctrl := 0x103, armed := true }; v.armed = true ∧ passed v.slotEnd 0 = true) ∧
    ((ready.setLin 3 { on := true, ctrl := 1 }).linHears 3 = true ∧ bit (1 : Word) 1 = false ∧ (ready.setLin 3 { on := true }).linSends 3 = true ∧
      SMap.find? ([(63, some can1)] : SMap (Option BusFrame)) (63 : BitVec 6).toNat = some (some can1) ∧ linErrCtr .bitErr = some .BIT_ERR) ∧
    (ready.linHears 3 = false ∧ bit (3 : Word) 1 = true ∧ passed 1 ready.beat = false ∧ (withReg .GW_LIN_CTRL 1 3).rbit .GW_LIN_CTRL 0 3 = true) ∧
    (ready.linc 3).header = none ∧ ((ready.setLin 3 { on := true, header := some 63 }).linc 3).header = some (63 : BitVec 6).toNat := by decide +kernel

/-- A container of one message in an Ethernet frame of stream 0. -/
def contFrame : List Byte := List.replicate 12 0 ++ [0x22, 0xF0, 0x82] ++ List.replicate 45 0

theorem wit_Tunnels :
    (let s : State := { ready with gw := { tun := [(15, { msgs := [[1]] })] } }
     s.tunDue 15 = false ∧ ({ s with time := { beat := 2 } } : State).tunDue 15 = true) ∧
    (let s : State := { ready.setPort 23 { cur := some 4 } with copies := [copyOf 4 23 7 .sending contFrame] }
     (s.port 23).cur = some 4 ∧ s.copyOf 4 = some (copyOf 4 23 7 .sending contFrame) ∧ tunnelCopy contFrame = true ∧ s.tunOf 0 = none ∧
     (s.setReg .GW_TUN_CTRL 1 15).tunOf 0 = some 15 ∧ contFrame.length ≤ 32768 ∧
     32768 < 32768 + contFrame.length) := by decide +kernel

/-! ### The host interface -/

/-- After READY with DMA allowed and TX ring 0 enabled with 16 entries, of which descriptor 0 may be fetched. -/
def withTx (g : Ring) : State :=
  let s := withHost.setReg .HIF_TXR_CFG 0x14 0
  { s with hif := { s.hif with ring := [(0, g)] } }
/-- A TX descriptor of a 60-byte frame. -/
def txDesc : List Word := [0, 0, 0x8000003C, 0, 0, 0, 0, 0, 0]
/-- Its descriptor read is outstanding; and it was fetched and its data read is outstanding. -/
def txAsked : Ring := { known := 1, asked := 1 }
def txRead : Ring := { known := 1, fetched := [{ idx := 0, words := txDesc, state := 4 }] }

theorem wit_HostRings :
    (let g : Ring := {}
     (withTx g).ringOn 0 = true ∧ g.stop = false ∧ (16 + 65536 - g.known) % 65536 ≠ 0 ∧ 16 < 2 ^ 15 ∧ (16 + 65536 - g.head) % 65536 ≤ (withTx g).ringSize 0 ∧
     (withTx g).ringSize 0 < (17 + 65536 - g.head) % 65536 ∧ ready.ringOn 0 = false ∧ g.asked = 0 ∧ g.reading = none) ∧
    (fld (0x80420000 : Word) 21 2 = 2 ∧ 2 ≤ fld (0x80420000 : Word) 16 5 ∧ bit (0x80420000 : Word) 31 = true ∧ withHost.hif.poll = false ∧
      withHost.rbit .HIF_CTRL 0 = true ∧ withHost.dmaOk = true ∧ ready.dmaOk = false) ∧
    (bit (0x410010 : Word) 31 = false ∧ fld (0x410010 : Word) 21 2 = 2 ∧ fld (0x410010 : Word) 16 5 < 2) ∧
    (txAsked.asked ≠ 0 ∧ (withTx txAsked).canFetch 0 = true ∧ bit (wd txDesc 2) 31 = true ∧ txBad txDesc = false ∧ txAsked.fetched = [] ∧
      ({ (withTx txAsked) with bug := { ready.bug with txSilent := true } } : State).bug.txSilent = true ∧ bit (wd [0, 0, 0x3C] 2) 31 = false) ∧
    (txRead.reading.isSome = true ∧ (withTx txRead).holdRoom 22 1 = true ∧ (withTx txRead).twin.safe = false ∧ (safeOf 3).twin.safe = true ∧
      (withTx txRead).ringOn 0 = true ∧ txAsked.reading = none) ∧
    (let s := withCmd withHost
     let s : State := { s with hif := { s.hif with ring := [(65, { known := 1, fetched := [{ idx := 0, words := [], state := 1 }] })] } }
     s.ringOn 65 = true ∧ ((s.ring 65).fetched.find? (fun x => x.state == 1)).isSome = true) := by decide +kernel

theorem wit_HostResets :
    (ready.ring 31).next = (ready.ring 31).known ∧ (ready.ring 31).waiting = none ∧ ready.hif.perst = false ∧ ({ ready with hif := { perst := true } } : State).hif.perst = true ∧ ready.dOn = true := by decide +kernel

/-- A host access to window 0. -/
def winAcc : WinAccess := { w := 0, off := 0, bytes := [(1, true), (2, true), (3, true), (4, true)], len := 4 }
/-- A request of window 0 that waits for its answer. -/
def winReq : WinReq := { seq := 1, write := true, addr := 0, len := 4, payload := [1, 2, 3, 4], sent := 0 }
/-- After READY with that request, at a counter value. -/
def withWin (n : Wide) : State :=
  { ready with hif := { win := [(0, { seq := 1, out := [winReq] })] }, time := { cnt := n } }
/-- A write of a peer. -/
def ezReq : EzReq := { smac := 0x020000000001, vid := 7, write := true, win := 0, seq := 1, addr := 0x30000, len := 4, payload := [1, 0, 0, 0] }
/-- Accept entry 7 takes it. -/
def withAcc : State := (ready.setReg .WIN_ACCEPT_HI 0x80070200 7).setReg .WIN_ACCEPT_LO 1 7

theorem wit_RegisterWindow :
    (ready.rbit .WIN_CFG 0 0 = false ∧ ready.hif.pwe.length < 64 ∧ ready.hostUp = true) ∧
    (let s := withReg .WIN_CFG 1 0
     s.rbit .WIN_CFG 0 0 = true ∧ s.rbit .WIN_CFG 2 0 = false ∧ s.winWaiting < 64 ∧ s.winTarget winAcc + 4 ≤ 2 ^ 26 ∧
     (touched 0 4).map (laneDw winAcc false) = [(0xF#4, [1, 2, 3, 4])] ∧
     (touched 0 1).map (laneDw { winAcc with bytes := [(1, true)] } false) = [(0x1#4, [1, 0, 0, 0])]) ∧
    (let s := withReg .WIN_CFG 5 0
     s.rbit .WIN_CFG 2 0 = true ∧ s.winTarget { winAcc with bytes := [] } = 0 ∧ Reg.at? (keepAlias 0x30000) = some (.HIF_CTRL, 0, 0) ∧
     s.writeRefusal 0x30000 0xF 1 = none ∧ s.partLacks .HIF_CTRL 0 = false ∧ classLacks .HIF_CTRL 0 = false ∧ cryReg .HIF_CTRL = false ∧
     (Reg.HIF_CTRL).row.acc = .rw ∧ (Reg.HIF_CTRL).row.cfg = false) ∧
    ((withWin 0).win 0).out.find? (fun q => q.seq == (1 : Word).toNat && ezAnswers .ack q.write) = some winReq ∧
    (ready.win 0).out.find? (fun q => q.seq == (1 : Word).toNat && ezAnswers .ack q.write) = none ∧
    (((withWin 625000).win 0).out.find? (fun q => decide (winLimit ≤ ((withWin 625000).time.cnt - q.sent).toNat)) = some winReq ∧
      ((withWin 0).win 0).out.find? (fun q => decide (winLimit ≤ ((withWin 0).time.cnt - q.sent).toNat)) = none) ∧
    ((ready.win 0).settled 0 = true ∧ ((withWin 0).win 0).settled 1 = false ∧ ((withWin 0).win 0).fence = [] ∧ ({ ready with hif := { perst := true } } : State).hostUp = false) ∧
    (let s := withReg .WIN_CFG 1 0
     s.peerBad { winAcc with bytes := [(1, true)], len := 1 } ≠ none ∧ 2 ^ 26 < s.winTarget winAcc + (2 ^ 26 + 1) ∧ (safeOf 3).twin.safe = true ∧ 64 < 65) ∧
    (ready.acceptOf ezReq.smac.toNat ezReq.vid.toNat = none ∧ withAcc.acceptOf ezReq.smac.toNat ezReq.vid.toNat = some 7 ∧
      withAcc.slotsUsed 7 < 16 ∧ withAcc.clk.shepDown = false ∧ ezReq.payload.length = 4) := by decide +kernel

/-- No register command hides in HIF_CTRL, the register of the two witnesses above. -/
theorem wit_RegisterWindow_plain (x : State) (w v : Word) : (match writeCmd x .HIF_CTRL 0 w v with | none => true | some _ => false) = true := rfl

/-! ### Keys -/

/-- A key record of a wrapping key. -/
def wrapRec : KeyRec := { klen := true, use := 8, exportable := true }
/-- A plaintext blob of a 256-bit wrapping key. -/
def plainBlob : List Word := [0x4C424E4B, 0x00000101, 0x00000028] ++ List.replicate 13 0
/-- The command ring is ready; slot 63 holds a key and slot 5 is stored. -/
def withKeys : State :=
  let s := withCmd withHost
  { s with cry := { slot := [(5, { st := .stored }), (63, { st := .ready, attr := wrapRec })], recs := [(5, wrapRec)] } }

/-- What is said of the unwrapping of a blob or of a record holds whichever way it goes (keyUnwrap: log entry 75), so its two cases
need no state of their own. -/
theorem wit_KeyCommands :
    (CmdStarts withKeys 1 0 (keyDesc ((cmdD 3 1).set 1 0x3F05) 1) ∧ keySlot ((cmdD 3 1).set 1 0x3F05) = 5 ∧ keyAux ((cmdD 3 1).set 1 0x3F05) = 63) ∧
    ((withKeys.slot 63).st = .ready ∧ maskBit (withKeys.slot 63).attr.use useWrap = true ∧ SMap.find? withKeys.cry.recs 5 = some wrapRec ∧
      SMap.find? withKeys.cry.recs 6 = none ∧ wrapRec.exportable = true ∧ ({ wrapRec with exportable := false } : KeyRec).exportable = false) ∧
    (blobOk plainBlob true = true ∧ blobOk plainBlob false = true ∧ (blobRec plainBlob).keyLen = 32 ∧ blobOk [] true = false) ∧
    ({ (withKeys.slot 63) with attr := wrapRec } : Slot).attr.exportable = true ∧ ready.cmdOpen 1 0 (keyDesc (cmdD 3 1) 1) = false ∧
    (withKeys.rbit .GLB_LOCK 0 = false ∧ (withKeys.setReg .GLB_LOCK 1).rbit .GLB_LOCK 0 = true) ∧
    (∀ k : Fin 8, CmdStarts withKeys 1 0 (keyDesc (cmdD 3 1) (if k.val = 0 then 1 else k.val))) := by unfold CmdStarts; decide +kernel

theorem wit_KeyStoreAndCores :
    (let s : State := { withKeys with cry := { withKeys.cry with upd := [{ slot := 5, new := none, key := [], owner := (1, 0), at_ := none }], loadQ := [5] } }
     s.cry.upd.length = 1 ∧ ready.cry.upd = [] ∧ ready.cry.loadQ.head? ≠ some (5 : Fin 64).val ∧
     ({ ready with cry := { coreBad := 8 } } : State).coreOk 3 = false ∧ s.cry.loadQ = 5 :: [] ∧ SMap.find? s.cry.recs 5 = some wrapRec) ∧
    (ready.coreOk 3 = true ∧ 3 ≤ (withReg .CRY_CORE_STATUS 0x03000000).rfld .CRY_CORE_STATUS (8 * 3) 8 ∧
      (withReg .CRY_CORE_STATUS 0x02000000).rfld .CRY_CORE_STATUS (8 * 3) 8 < 3) := by decide +kernel

/-! ### Recorder, power and sleep -/

/-- Tap 1 as given, enabled and recording; a copy that it has to read. -/
def withTap (tp : Tap) (m : RecMode := .recording) : State :=
  let s : State := { withHost.setReg .REC_TAP_CFG 1 1 with ret := { mode := m, tap := [(1, tp)] } }
  { s with copies := [{ copyOf 4 23 7 .linked with tap := [1] }] }

theorem wit_Recorder :
    ((withTap { queue := [.copy 4] }).ret.mode = .recording ∧ (withTap {}).rbit .REC_TAP_CFG 0 1 = true ∧
      ((withTap {}).copyOf 4).isSome = true ∧ tapNext 4 [.copy 4] = true ∧ [1].contains 1 = true) ∧
    (max ((withTap {}).rfld .REC_TAP_CFG 9 7 1) 1 ≤ ((1 : Beat) - 0).toNat ∧ ¬ max ((withTap {}).rfld .REC_TAP_CFG 9 7 1) 1 ≤ ((1 : Beat) - 1).toNat) ∧
    ((withTap {}).dmaOk = true ∧ (withTap {}).slabOk (({ ring := 0x10000 } : Tap).slabOf 0) 1 = true ∧
      (withTap {}).slabOk (({ ring := 0x10000 } : Tap).slabOf 0) 0 = false) ∧
    ((withTap {} .frozen).ret.mode = .frozen ∧ ready.ret.mode = .idle ∧
      ({ ready with ret := { mode := .post } } : State).ret.trig.toNat + (ready.setReg .REC_SPAN 0).rfld .REC_SPAN 0 16 * 100000000 ≤ ready.now0.toNat) := by
  decide +kernel

/-- Tap 1 with slot 62 READY for XTS, and an announcement from accept entry 7 on P23. -/
def withXts : State :=
  { (withTap { full := [{}] }).setReg .REC_TAP_CFG 0x1F1 1 with
    cry := { slot := [(62, { st := .ready, attr := { klen := true, use := 2 }, key := List.replicate 32 1 })] } }
def annFrame : List Byte := List.replicate 6 0 ++ [2, 0, 0, 0, 0, 1, 0x81, 0, 0, 7, 0x88, 0xB5] ++ List.replicate 42 0
def withAnn : State := { ((withAcc.setReg .REC_CTRL 0x80).setReg .REC_ANN_CFG 0x88B5).setPort 23 { cur := some 4 } with
  copies := [copyOf 4 23 7 .sending annFrame] }

theorem wit_Recorder_more :
    ((withXts.rtap 1).full.length = 1 ∧ (withXts.rtap 1).rolling = false ∧ (xtsKeys (flagsSeen withXts.quiet [(0, 1)]) 1 {} {}).1.isSome = true ∧
      (xtsCore (xtsKeys (flagsSeen withXts.quiet [(0, 1)]) 1 {} {}).2).1.isSome = true) ∧
    ((withAnn.port 23).cur = some 4 ∧ withAnn.announced (partsOf annFrame) = true ∧ withAnn.announced (partsOf contFrame) = false ∧
      tunnelCopy annFrame = false ∧ withAnn.ret.mode = .idle) ∧
    (({} : Tap).open_ = none ∧ ({} : Tap).full = [] ∧ (withTap { open_ := some {} }).dmaOk = true ∧ ready.dmaOk = false ∧ tapNext 4 [] = false) := by
  decide +kernel

/-- After READY in a sleep sequence. -/
def inSeq (q : PwrSeq) : State := { ready with bug := { ready.bug with seq := q } }

theorem wit_Sleep :
    (bit (3 : Word) 5 = false ∧ bit (3 : Word) 7 = false ∧ fld (3 : Word) 0 2 = 3 ∧ fld (4 : Word) 0 2 = 0 ∧ bit (0x22 : Word) 5 = true ∧ fld (0x22 : Word) 0 2 = 2 ∧
      bit (0x82 : Word) 7 = true ∧ bit (0x82 : Word) 5 = false ∧ (ready.port 0).started = false) ∧
    ((inSeq .prepare).bug.seq = .prepare ∧ (inSeq .prepare).bug.aborting = false ∧ (inSeq .stopped).bug.seq = .stopped ∧ ready.bug.seq = .run ∧
      ({ ready with bug := { power := .doze } } : State).bug.wakeNext = none ∧ (withPort 15 { started := true }).clk.phase = 7 ∧
      ((withPort 15 { started := true }).port 15).started = true) ∧
    (({ inSeq .prepare with time := { beat := 1 } } : State).beat ≠ (inSeq .prepare).bug.prepAt ∧
      ({ inSeq .prepare with time := { beat := 1 } } : State).holds = 0 ∧
      ({ inSeq .prepare with bug := { (inSeq .prepare).bug with holdHost := true } } : State).holds ≠ 0 ∧
      ((inSeq .prepare).setReg .BUG_SLEEP_CFG 0x10).rfld .BUG_SLEEP_CFG 4 12 * 125 ≤ ((125 : Beat) - 0).toNat ∧
      ¬ ((inSeq .prepare).setReg .BUG_SLEEP_CFG 0x10).rfld .BUG_SLEEP_CFG 4 12 * 125 ≤ ((124 : Beat) - 0).toNat) ∧
    ((inSeq .stopped).reg .BUG_WAKE_LATCH = 0 ∧ ((inSeq .stopped).setReg .BUG_WAKE_LATCH 1).reg .BUG_WAKE_LATCH ≠ 0 ∧
      (inSeq .committed).bug.seq = .committed) := by decide +kernel

/-- The D-die off in a power state, with a Bugle register as given. -/
def asleep (p : Power) (r : Reg) (v : Word) (j : Nat := 0) : State :=
  { ready.setReg r v j with dOn := false, bug := { power := p, faultN := false } }

theorem wit_Wakes :
    ((asleep .sleep .BUG_WAKE_CFG 0xFFFFFF).bug.seq = .run ∧ (asleep .sleep .BUG_WAKE_CFG 0xFFFFFF).rbit .BUG_WAKE_CFG (20 + 3) = true ∧
      (asleep .sleep .BUG_WAKE_CFG 0x800).rbit .BUG_WAKE_CFG (4 + 7) = true ∧ (asleep .sleep .BUG_WAKE_CFG 0).rbit .BUG_WAKE_CFG 20 = false) ∧
    (let s := ((asleep .listen .BUG_WAKE_CFG 0x80000).setReg .BUG_SW_CTRL 0x0F 7).setReg .BUG_SW_ID 1 7
     let s := s.setReg .BUG_SW_IDMASK 0x3FFFFFFF 7
     s.swArmed 7 = true ∧ can1.kind = 0 ∧ can1.fdf = false ∧ (List.range 8).find? (fun k => s.swMatch k 7 can1) = some 7 ∧
     s.rfld .BUG_SW_CFG 8 8 < SMap.get 0 [(7, 255)] 7 + 1) ∧
    ((asleep .listen .BUG_TC10_CFG 0x8000).hasPort 15 = true ∧ (asleep .listen .BUG_TC10_CFG 0x8000).rbit .BUG_TC10_CFG 15 = true ∧
      (asleep .listen .BUG_TC10_CFG 0).rbit .BUG_TC10_CFG 0 = false) ∧
    ((asleep .sleep .BUG_WAKE_PIN 0).bug.power = .sleep ∧ ({ timerOn := true } : Bugle).timerOn = true ∧ (asleep .sleep .BUG_WAKE_CFG 0).rbit .BUG_WAKE_CFG (12 + 7) = false ∧
      (asleep .sleep .BUG_WAKE_CFG 0x80000).rbit .BUG_WAKE_CFG (12 + 7) = true) ∧
    ((asleep .brownout .BUG_WAKE_CFG 0).bug.power = .brownout ∧ (asleep .sleep .BUG_WAKE_CFG 0).bug.timerOn = false ∧
      (let s := asleep .sleep .BUG_WAKE_LATCH 1
       ({ s with bug := { s.bug with woken := true } } : State).dOn = false ∧ s.clk.resetN = true ∧ s.bug.woken = false)) := by decide +kernel

theorem wit_Supplies :
    (ready.bug.power ≠ .off ∧ ready.bug.power ≠ .brownout ∧ (asleep .off .BUG_WAKE_CFG 0).bug.power = .off) ∧
    (ready.twin.safe = false ∧ ready.clk.phase = 7 ∧ (safeOf 3).twin.safe = true) ∧
    (maskBit ({ ready with bug := { ready.bug with inh := 3 } } : State).bug.inh 1 = true ∧ maskBit ready.bug.inhFault 1 = false ∧
      maskBit ({ ready with bug := { ready.bug with inh := 1 } } : State).bug.inh 1 = false) := by decide +kernel

/-! ### Update and settings -/

/-- Staging locked by the host, or by a tester. -/
def withLock (owner tester : Nat) : State :=
  let s := withCmd withHost
  { s with upd := { s.upd with owner, tester } }

theorem wit_Staging :
    (CmdStarts (withLock 1 0) 1 0 (cmdDesc (cmdD 1 1) 1 1) ∧ (withLock 1 0).upd.act = 0 ∧ (withLock 1 0).upd.running ≠ 2 ∧ (withLock 0 0).upd.owner = 0 ∧
      ({ ready with upd := { running := 2 } } : State).upd.running = 2) ∧
    (CmdStarts (withLock 1 0) 1 0 (cmdDesc (cmdD 1 2 0 0x10000) 1 2) ∧ wfld (cmdDesc (cmdD 1 2 0 0x10000) 1 2) 2 16 6 = 1 ∧
      0 + 1 * 4096 ≤ 16777216 ∧ ((withLock 1 0).argSlabs (cmdDesc (cmdD 1 2 0 0x10000) 1 2) [slab0]).isSome = true) ∧
    (CmdStarts (withLock 1 0) 1 0 (cmdDesc (cmdD 1 3) 1 3) ∧ CmdStarts (withLock 1 0) 1 0 (cmdDesc (cmdD 1 4) 1 4) ∧
      9375000000 ≤ ((9375000000 : Wide) - (withLock 1 0).upd.lastOp).toNat ∧ ¬ 9375000000 ≤ ((9374999999 : Wide) - (withLock 1 0).upd.lastOp).toNat) ∧
    ((withLock 2 65535).shepUp = true ∧ (withLock 2 65535).upd.tester = (65535 : BitVec 16).toNat ∧ (16777216 : BitVec 32).toNat ≤ 16777216 ∧
      (1 : Byte).toNat = ((withLock 2 65535).upd.blocks + 1) % 256 ∧ State.reset.shepUp = false) := by unfold CmdStarts; decide +kernel

/-- The staged image verified under generation 0 and may run. -/
def withStaged : State :=
  let s := withCmd withHost
  { s with upd := { s.upd with stageState := 2 } }

/-- An ACTIVATE of a tester is accepted, or BUSY. -/
theorem wit_Staging_activate :
    withStaged.actJudge withStaged.upd.testerGen = 0 ∧
    ({ withStaged with upd := { withStaged.upd with act := 2 } } : State).actJudge 0 = 1 := by decide +kernel

/-- The image itself is the model's free data, so what is said of an image that does or does not verify, and of the formats it names, holds
whichever way that goes. -/
theorem wit_Activation :
    (CmdStarts withStaged 1 0 (cmdDesc (cmdD 1 5) 1 5) ∧ withStaged.upd.stageState = 2 ∧ wfld (cmdDesc (cmdD 1 5) 1 5) 1 0 8 = withStaged.upd.gen ∧
      wfld (cmdDesc ((cmdD 1 5).set 1 255) 1 5) 1 0 8 ≠ withStaged.upd.gen ∧ withStaged.reg .KEEP_CTR 0 = 0 ∧ withStaged.upd.act = 0 ∧
      withStaged.twin.safe = false ∧ withStaged.anyEligible.isSome = true ∧ (withB .failed).anyEligible.isSome = false ∧
      ready.upd.stageState ≠ 2) ∧
    (withStaged.actId = some false ∧ (withStaged.plane true).mode = .standby) ∧
    (({ ready with upd := { act := 2 } } : State).upd.act = 2 ∧ ({ ready with upd := { act := 8 } } : State).upd.act = 8) := by
  unfold CmdStarts; decide +kernel

theorem wit_CounterIncrement :
    CmdStarts (withCmd withHost) 1 0 (cmdDesc (cmdD 1 6 29) 1 6) ∧ (wd (cmdDesc (cmdD 1 6 29) 1 6) 1).toNat = 29 ∧
    (withCmd withHost).reg .KEEP_CTR 29 ≠ 0xFFFFFFFF ∧ ((withCmd withHost).setReg .KEEP_CTR 0xFFFFFFFF 29).reg .KEEP_CTR 29 = 0xFFFFFFFF := by
  unfold CmdStarts; decide +kernel

theorem wit_CommitRequests :
    (CmdStarts (withCmd withHost) 1 0 (cmdDesc (cmdD 2 1) 2 1) ∧ CmdStarts (withCmd withHost) 1 0 (cmdDesc (cmdD 2 2) 2 2) ∧
      CmdStarts (withCmd withHost) 1 0 (cmdDesc (cmdD 2 3) 2 3) ∧ ready.upd.cfg = none) ∧
    (let q : CfgReq := { src := some (1, 0), epoch := 0, atBeat := false, beat := 0, checked := false }
     let s : State := { withCmd withHost with upd := { cfg := some q } }
     s.upd.cfg ≠ none ∧ q.epoch ≤ s.reg .KEEP_CFG_EPOCH_HI ∧ (s.quiet.cfgJudge q).isSome = true) := by unfold CmdStarts; decide +kernel

/-- A set that no check refuses: every port starts at node 0, which ends the walk. -/
theorem wit_CommitRequests_accepted :
    (ready.setReg .PAR_NODE_SEL 0x4000 0).cfgJudge { src := none, epoch := 1, atBeat := false, beat := 0, checked := false } = none := by
  decide +kernel

/-- A settings record of group 1 with an empty body, as SETTINGS_PUT reads it. -/
def putSlab : SlabRead := { slab0 with data := [1, 0, 1, 0, 0, 0, 0, 0] ++ leBytes (crc32 []).toNat 4 ++ List.replicate 20 0 }

theorem wit_SettingsCommands :
    (∀ op ∈ [4, 5, 6], CmdStarts (withCmd withHost) 1 0 (cmdDesc (cmdD 2 op 0 0x10000) 2 op)) ∧
    ((withCmd withHost).argSlabs (cmdDesc (cmdD 2 5 0 0x10000) 2 5) [slab0] = some [slab0] ∧ ready.upd.cfg = none ∧ State.reset.upd.setForce = none) ∧
    ((putRecs 3 putSlab.data).length = 1 ∧ ((putRecs 3 putSlab.data).all (·.ok)) = true ∧
      ((putRecs 3 [1, 0, 1, 0, 0, 0, 0, 0, 9, 9, 9, 9]).all (·.ok)) = false) := by unfold CmdStarts; decide +kernel

/-- A fingerprint TLV of OUI 0. -/
def tlv1 : List Byte := [0xFE, 0x20, 0, 0, 0, 1] ++ List.replicate 28 0
/-- After READY with peer entry `j` valid, whose MAC is `j`. -/
def withPeer (j : Nat) (s : State := ready) : State := (s.setReg .UPD_PEER_MAC_HI 0x80000000 j).setReg .UPD_PEER_MAC_LO (BitVec.ofNat 32 j) j

theorem wit_FingerprintPeers :
    (ready.shepUp = true ∧ State.reset.shepUp = false ∧ (ready.setReg .UPD_LLDP_OUI 0).tlvOk tlv1 = true ∧ ready.tlvOk [] = false) ∧
    ((withPeer 31).peerMac 31 = some (31 : BitVec 48).toNat ∧ (withPeer 31).peerMac 0 = none ∧
      (let full := (List.range 32).foldl (fun s j => withPeer j s) ready
       ∀ j : Fin 32, full.peerMac j ≠ none ∧ full.peerMac j ≠ some (32 : BitVec 48).toNat)) ∧
    ((ready.setReg .UPD_PEER_EXP_MAC_HI 0x80000000 31).expMac 31 = some 0 ∧ 1250000000 ≤ ((1250000000 : Wide) - 0).toNat ∧
      (65535 : Nat) * 312500000 ≤ ((20479687500000 : Wide) - 0).toNat) := by decide +kernel

/-! ### Worked examples of the manual -/

/-- Chapter 19: addresses of queue 93's and P11's registers and of STALE of queue 93. -/
theorem test_addresses : Reg.TM_Q_SCHED.addr 93 0 = 0x6305D0 ∧ Reg.PORT_LINK_STATUS.addr 11 0 = 0x12C010 ∧
    0xF00000 + (Ctr.queue 93 .STALE).off = 0xF14600 := by decide +kernel

/-- Chapter 14: the check of the ASCII string 123456789 is 0x1697_D06A. -/
theorem test_check : crcP4 crcP4Init [0x31, 0x32, 0x33, 0x34, 0x35, 0x36, 0x37, 0x38, 0x39] ^^^ 0xFFFFFFFF = 0x1697D06A := by decide +kernel

/-- Chapter 12: one 8-byte store through a LOCAL window of a big-endian host, data-invariant and address-invariant. -/
theorem test_window_lanes :
    let a : WinAccess := { w := 2, off := 0x1040, len := 8,
                           bytes := [0x11, 0x22, 0x33, 0x44, 0x55, 0x66, 0x77, 0x88].map (fun b : Byte => (b, true)) }
    [false, true].map (fun k => (touched 0x1040 8).map (fun d => leWord (laneDw a k d).2 0)) =
      [[0x44332211, 0x88776655], [0x11223344, 0x55667788]] := by decide +kernel

/-- Chapter 4: the vector recovery of a new stream with HIST_LEN = 8 on the sequence numbers 100, 101, 103, 102, 102, 120: what is
accepted, and REC_SEQ and HISTORY after each. -/
theorem test_vector_recovery :
    let e0 : List Word := wsetFld (wsetFld (wsetFld (wsetFld (List.replicate 13 0) 9 25 2 1) 10 0 6 8) 10 8 12 100) 10 20 1 1
    ([100, 101, 103, 102, 102, 120].foldl (fun (x : List (Bool × Nat × Nat) × List Word) q =>
      let r := recover x.2 0 q 0
      (x.1 ++ [(r.accept, wfld r.entry 11 16 16, (wd r.entry 12).toNat)], r.entry)) ([], e0)).1 =
    [(true, 100, 1), (true, 101, 3), (true, 103, 13), (true, 103, 15), (false, 103, 15), (false, 103, 15)] := by decide +kernel

/-! ### Single steps -/

/-- What `p` says of the state that a step on command `c` gives from `s`. -/
def after (c : Instr) (s : State) (p : State → Bool) : Bool :=
  match step { s with pending := [c] } with
  | .next t => p t
  | _ => false

/-- R3: GLB_DEVICE_ID of an AM7240. -/
theorem test_device_id : after (.rcRegisterRead (rd 0)) ready (fun t => t.out == [.read 0x00B07240]) = true := by decide +kernel
/-- R302: a sum wraps, a source being the destination too. -/
theorem test_add_wraps :
    after (.add 15 3 3 4) (withEng 15 { run := .main, regM := [(3, 0xFFFFFFFF), (4, 2)] }) (fun t => (t.engine 15).rg 3 == 1) = true := by
  decide +kernel
/-- R302: SAR takes the sign. -/
theorem test_sar_sign :
    after (.sar 0 1 2 3) (withEng 0 { run := .main, regM := [(2, 0x80000000), (3, 33)] }) (fun t => (t.engine 0).rg 1 == 0xC0000000) = true := by
  decide +kernel
/-- R301: k0 reads zero, so a write to it is lost. -/
theorem test_k0 : after (.addi 0 0 0 5) (withEng 0 engMain) (fun t => (t.engine 0).rg 0 == 0) = true := by decide +kernel
/-- R255, R538: the safe state asserts FAULT_N. -/
theorem test_safe_fault : after (.safeStateEntry 3) ready (fun t => t.twin.safe && t.bug.faultN && t.twin.cause == 3) = true := by decide +kernel
/-- R464: INC_CTR of counter 29. -/
theorem test_inc_ctr : after (.incCtr 1 0 (cmdD 1 6 29) []) (withCmd withHost) (fun t => t.reg .KEEP_CTR 29 == 1) = true := by decide +kernel

end Sys2Proof.Tests
end

section
/-! The reading rules of BAR0 (R351, R5), and the device's identity (R3). -/

namespace Sys2Proof.Machine

/-! ### A BAR0 read that is served -/

/-- R351: a read of one whole aligned DW of a running domain is not refused. -/
theorem State.readRefusal_eq_none {s : State} {a dws : Nat} {be : BitVec 4} (hw : wholeDw a be dws = true)
    (hs : s.stopped a = false) : s.readRefusal a be dws = none := by
  simp [State.readRefusal, hw, hs]

/-- The fabric's read of an address at which a register lies. -/
theorem busGet_of_at {a : Nat} {r : Reg} {i j : Nat} (hc : counterAddr a = false)
    (h : Reg.at? (keepAlias a) = some (r, i, j)) (s : State) : busGet s a = regRead s r i j := by
  simp [busGet, hc, h]

/-- R351: the host's read of an address that is not refused is the fabric's; a read of WIN_FENCE is held (R378). -/
theorem hostLoad_eq {s : State} {a dws : Nat} {be : BitVec 4} (hr : s.readRefusal a be dws = none)
    (hf : ∀ x, Reg.at? a ≠ some (.WIN_FENCE, x)) : hostLoad s a be dws = (busGet s a).2.put (.read (busGet s a).1) := by
  have hread : hostRead s a be dws = busGet s a := by simp [hostRead, hr]
  unfold hostLoad
  split
  · next w _ _ hat => exact absurd hat (hf _)
  · rw [hread]

theorem exec_rcRegisterRead (acc : BusRead) (s : State) :
    exec (.rcRegisterRead acc) s = fromHost s (fun s => hostLoad s acc.addr.toNat acc.be acc.dws) := rfl

/-- R351: a served read that changes nothing in the device puts the value outside and nothing else. -/
theorem exec_rcRegisterRead_of_busGet {s : State} {acc : BusRead} {v : Word} (hd : s.dOn = true) (hu : s.hostUp = true)
    (hw : wholeDw acc.addr.toNat acc.be acc.dws = true) (hs : s.stopped acc.addr.toNat = false)
    (hf : ∀ x, Reg.at? acc.addr.toNat ≠ some (.WIN_FENCE, x)) (hg : busGet s.quiet acc.addr.toNat = (v, s.quiet)) :
    exec (.rcRegisterRead acc) s = .next { s with out := [.read v] } := by
  have hr : s.quiet.readRefusal acc.addr.toNat acc.be acc.dws = none := State.readRefusal_eq_none hw hs
  calc exec (.rcRegisterRead acc) s
      = .next (s.keepOutside (hostLoad s.quiet acc.addr.toNat acc.be acc.dws)) := by
        rw [exec_rcRegisterRead, fromHost_up hd hu]
    _ = .next (s.keepOutside (s.quiet.put (.read v))) := by rw [hostLoad_eq hr hf, hg]
    _ = .next { s with out := [.read v] } := rfl

/-! ### GLB_DEVICE_ID (R3) -/

/-- The word that GLB_DEVICE_ID reads on a part. -/
def deviceIdWord : Part → Word
  | .am7240 => 0x00B07240
  | .am7220 => 0x00B07220

/-- The PART field, bits 15:0. -/
theorem fld_deviceIdWord_part (p : Part) :
    fld (deviceIdWord p) 0 16 = (match p with | .am7240 => 0x7240 | .am7220 => 0x7220) := by
  cases p <;> rfl

/-- The STEP field, bits 23:16. -/
theorem fld_deviceIdWord_step (p : Part) : fld (deviceIdWord p) 16 8 = 0xB0 := by cases p <;> rfl

/-- Both parts have GLB_DEVICE_ID. -/
theorem State.partLacks_deviceId (s : State) : s.partLacks .GLB_DEVICE_ID 0 = false := by
  simp [State.partLacks, Reg.row, mkRow]

theorem regRead_deviceId (s : State) : regRead s .GLB_DEVICE_ID 0 0 = (deviceIdWord s.part, s) := by
  have hl : s.live .GLB_DEVICE_ID 0 0 = some (deviceIdWord s.part) := by
    cases h : s.part <;> simp [State.live, liveCore, deviceIdWord, h]
  simp [regRead, State.partLacks_deviceId, classLacks, hl]

theorem keepAlias_deviceId : keepAlias (Reg.GLB_DEVICE_ID.addr 0 0) = Reg.GLB_DEVICE_ID.addr 0 0 := rfl

theorem Reg.at?_deviceId : Reg.at? (Reg.GLB_DEVICE_ID.addr 0 0) = some (.GLB_DEVICE_ID, 0, 0) := by decide

theorem busGet_deviceId (s : State) : busGet s (Reg.GLB_DEVICE_ID.addr 0 0) = (deviceIdWord s.part, s) := by
  have hat := (congrArg Reg.at? keepAlias_deviceId).trans Reg.at?_deviceId
  rw [busGet_of_at (by decide) hat, regRead_deviceId]

/-- R495: GLB_DEVICE_ID lies in no domain that can stop. -/
theorem State.stopped_deviceId (s : State) : s.stopped (Reg.GLB_DEVICE_ID.addr 0 0) = false := rfl

/-- Settles O7: the read is served whatever the clocks, and its value is a constant of the part. -/
theorem deviceIdentity : Obligations.DeviceIdentity := by
  intro s acc hd hu ha hbe hdws
  have hw : wholeDw acc.addr.toNat acc.be acc.dws = true := by rw [ha, hbe, hdws]; decide
  have hs : s.stopped acc.addr.toNat = false := by rw [ha]; exact s.stopped_deviceId
  have hf : ∀ x, Reg.at? acc.addr.toNat ≠ some (.WIN_FENCE, x) := by rw [ha, Reg.at?_deviceId]; simp
  have hg : busGet s.quiet acc.addr.toNat = (deviceIdWord s.part, s.quiet) := by rw [ha]; exact busGet_deviceId s.quiet
  exact ⟨_, exec_rcRegisterRead_of_busGet hd hu hw hs hf hg, _, rfl, fld_deviceIdWord_part s.part, fld_deviceIdWord_step s.part⟩

end Sys2Proof.Machine
end

section
/-! The age of an FDB entry (R93). -/

namespace Sys2Proof.Machine

/-- The ticks from a time stamp to the current tick modulo 256, which the model counts in `Nat`, are their difference modulo 256. -/
theorem ticksSince_cast (now : Nat) {ts : Nat} (hts : ts ≤ 256) :
    (((now + 256 - ts) % 256 : Nat) : Int) = ((now : Int) - (ts : Int)) % 256 := by omega

/-- The time stamp of an entry is an 8-bit field. -/
theorem wfld_lt (ws : List Word) (i lo n : Nat) : wfld ws i lo n < 2 ^ n := Nat.mod_lt _ (Nat.two_pow_pos n)

/-- R93, as one equivalence: aging is on, the entry is of the kind that is aged, and its age has reached the limit. -/
theorem State.aged_iff (s : State) (e : List Word) :
    s.aged e = true ↔ s.rfld .LKP_AGE_CFG 0 8 ≠ 0 ∧ fdbStatic e = false ∧ fdbMc e = false ∧
      (s.rfld .LKP_AGE_CFG 0 8 : Int) ≤ ((s.tickNow : Int) - (wfld e 2 21 8 : Int)) % 256 := by
  have hts : wfld e 2 21 8 ≤ 256 := Nat.le_of_lt (wfld_lt e 2 21 8)
  rw [← ticksSince_cast s.tickNow hts, Int.ofNat_le]
  simp [State.aged, and_assoc]

/-- Settles O30, by the equivalence: each kind of entry, and AGE_LIMIT = 0, contradicts one of its parts. -/
theorem agedEntries : Obligations.AgedEntries := by
  intro s e
  refine ⟨fun hkind => ?exempt, fun hlim => ?off, fun hstatic hmc hlim => ⟨fun haged => ?old, fun hage => ?aged⟩⟩
  case exempt =>
    refine Bool.eq_false_iff.mpr fun haged => ?_
    obtain ⟨-, hstatic, hmc, -⟩ := (s.aged_iff e).mp haged
    rcases hkind with h | h
    · exact Bool.false_ne_true (hstatic.symm.trans h)
    · exact Bool.false_ne_true (hmc.symm.trans h)
  case off =>
    refine Bool.eq_false_iff.mpr fun haged => ?_
    obtain ⟨hlim', -⟩ := (s.aged_iff e).mp haged
    exact hlim' hlim
  case old =>
    obtain ⟨-, -, -, hage⟩ := (s.aged_iff e).mp haged
    exact hage
  case aged => exact (s.aged_iff e).mpr ⟨hlim, hstatic, hmc, hage⟩

end Sys2Proof.Machine
end

section
/-! The loads and stores of an engine's address map, and the faults elsewhere (R302, R303, R320). -/

namespace Sys2Proof.Machine

/-! ### Byte strings -/

/-- A slice is filled up with zero bytes to the length asked for. -/
theorem length_slice (l : List Byte) (i n : Nat) : (slice l i n).length = n := by
  simp only [slice, List.length_append, List.length_replicate]
  exact Nat.add_sub_cancel' (List.length_take_le n _)

/-- A slice shows the bytes from its start, and zero beyond the end of the string. -/
theorem slice_eq_map (l : List Byte) (i n : Nat) : slice l i n = (List.range n).map (fun k => byteAt l (i + k)) := by
  refine List.ext_getElem (by rw [length_slice, List.length_map, List.length_range]) fun k hk _ => ?_
  have hkn : k < n := by rwa [length_slice] at hk
  simp only [slice, byteAt, List.getElem_append, List.getElem_map, List.getElem_range, List.getD_eq_getElem?_getD]
  split
  case isTrue h =>
    rw [List.length_take, List.length_drop] at h
    have hl : i + k < l.length := by omega
    rw [List.getElem_take, List.getElem_drop, List.getElem?_eq_getElem hl, Option.getD_some]
  case isFalse h =>
    rw [List.length_take, List.length_drop] at h
    have hl : l.length ≤ i + k := by omega
    rw [List.getElem_replicate, List.getElem?_eq_none hl, Option.getD_none]

/-- Four bytes as a number, least significant first. -/
theorem leNat_map_four (f : Nat → Byte) :
    leNat ((List.range 4).map f) 0 4 = (f 0).toNat + 2 ^ 8 * (f 1).toNat + 2 ^ 16 * (f 2).toNat + 2 ^ 24 * (f 3).toNat := by
  simp [leNat, byteAt, List.range_succ]
  omega

/-- Four bytes as a number, most significant first. -/
theorem beNat_map_four (f : Nat → Byte) :
    beNat ((List.range 4).map f) 0 4 = 2 ^ 24 * (f 0).toNat + 2 ^ 16 * (f 1).toNat + 2 ^ 8 * (f 2).toNat + (f 3).toNat := by
  simp [beNat, byteAt, List.range_succ]
  omega

theorem leNat_map_two (f : Nat → Byte) : leNat ((List.range 2).map f) 0 2 = (f 0).toNat + 2 ^ 8 * (f 1).toNat := by
  simp [leNat, byteAt, List.range_succ]

theorem leNat_map_one (f : Nat → Byte) : leNat ((List.range 1).map f) 0 1 = (f 0).toNat := by
  simp [leNat, byteAt, List.range_succ]

/-- The byte at bit `lo` of a word, cut from its value. -/
theorem ofNat_toNat_div_two_pow (w : Word) (lo : Nat) : BitVec.ofNat 8 (w.toNat / 2 ^ lo) = w.extractLsb' lo 8 := by
  refine BitVec.eq_of_toNat_eq ?_
  simp [BitVec.extractLsb'_toNat, Nat.shiftRight_eq_div_pow]

/-- A word as bytes, least significant first. -/
theorem leBytes_toNat_four (w : Word) :
    leBytes w.toNat 4 = [w.extractLsb' 0 8, w.extractLsb' 8 8, w.extractLsb' 16 8, w.extractLsb' 24 8] := by
  simp [leBytes, ← ofNat_toNat_div_two_pow, Nat.div_div_eq_div_mul]

/-- A word as bytes, most significant first. -/
theorem beBytes_toNat_four (w : Word) :
    beBytes w.toNat 4 = [w.extractLsb' 24 8, w.extractLsb' 16 8, w.extractLsb' 8 8, w.extractLsb' 0 8] := by
  simp [beBytes, ← ofNat_toNat_div_two_pow]

theorem leBytes_toNat_two (w : Word) : leBytes w.toNat 2 = [w.extractLsb' 0 8, w.extractLsb' 8 8] := by
  simp [leBytes, ← ofNat_toNat_div_two_pow]

theorem leBytes_toNat_one (w : Word) : leBytes w.toNat 1 = [w.extractLsb' 0 8] := by
  simp [leBytes, ← ofNat_toNat_div_two_pow]

/-! ### Where an engine may load and store (R303) -/

/-- Below its end, data memory shows its bytes. -/
theorem Engine.bytes_eq_peek (g : Engine) {a n : Nat} (h : a + n ≤ 8192) :
    g.bytes a n = (List.range n).map (fun k => g.peek (a + k)) := by
  refine List.map_congr_left fun k hk => ?_
  have : a + k < 8192 := by have := List.mem_range.mp hk; omega
  simp [Engine.peek, this]

/-- From its start, the event window shows the item of an event routine, and zero otherwise. -/
theorem Engine.window_eq_peek (g : Engine) {a : Nat} (n : Nat) (h : 0x4000 ≤ a) :
    g.window (a - 0x4000) n = (List.range n).map (fun k => g.peek (a + k)) := by
  have hd : ∀ k, ¬ a + k < 8192 := by omega
  have ho : ∀ k, a + k - 0x4000 = a - 0x4000 + k := by omega
  unfold Engine.window Engine.peek
  cases hev : g.inEvent with
  | false => simp [hd, List.map_const']
  | true =>
    cases hit : g.item with
    | none => simp [hd, List.map_const']
    | some it => simp [hd, ho, slice_eq_map]

/-- R303: where a load may be, it returns the bytes of the map. -/
theorem Engine.load_of_loadable (g : Engine) {a n : Nat} (h : Loadable a n) :
    g.load a n = some ((List.range n).map (fun k => g.peek (a + k))) := by
  obtain ⟨hal, hdat | ⟨hlo, hhi⟩⟩ := h
  · simp [Engine.load, inData, hal, hdat, g.bytes_eq_peek hdat]
  · have hnd : ¬ a + n ≤ 8192 := by omega
    simp [Engine.load, inData, hal, hnd, hlo, hhi, g.window_eq_peek n hlo]

/-- R303: elsewhere a load returns nothing. -/
theorem Engine.load_of_not_loadable (g : Engine) {a n : Nat} (h : ¬ Loadable a n) : g.load a n = none := by
  unfold Loadable at h
  unfold Engine.load inData
  split
  · rfl
  · next hal =>
    have hnd : ¬ a + n ≤ 8192 := by omega
    have hnw : ¬ (0x4000 ≤ a ∧ a + n ≤ 0x5000) := by omega
    simp [hnd, hnw]

/-! ### What a load, a store and a fault leave -/

/-- R302, R303: a load that may be writes the number that the bytes of the map spell. -/
theorem kLoad_writes {s : State} {e rd ra n : Nat} {imm : BitVec 18} (spell : List Byte → Nat)
    (h : Loadable ((s.engine e).ea ra imm) n) :
    WritesReg s (s.keepOutside (kLoad s.quiet e rd ra imm n spell)) e rd
      (BitVec.ofNat 32 (spell ((List.range n).map (fun k => (s.engine e).peek ((s.engine e).ea ra imm + k))))) 2 := by
  unfold kLoad
  rw [State.engine_quiet, Engine.load_of_loadable _ h]
  exact kReg_writes s e rd 2 _

/-- R303: any other load faults. -/
theorem kLoad_faults {s : State} {e ra n : Nat} {imm : BitVec 18} (rd : Nat) (spell : List Byte → Nat)
    (h : ¬ Loadable ((s.engine e).ea ra imm) n) : kLoad s e rd ra imm n spell = faultHere s e 2 := by
  unfold kLoad
  rw [Engine.load_of_not_loadable _ h]

/-- R302, R303: a store that may be writes the bytes of rd, as many as it names. -/
theorem kStore_stores {s : State} {e ra n : Nat} {imm : BitVec 18} (rd : Nat) (spell : Nat → List Byte)
    (h : Storable ((s.engine e).ea ra imm) n) :
    StoresBytes s (s.keepOutside (kStore s.quiet e rd ra imm n spell)) e ((s.engine e).ea ra imm)
      (spell ((s.engine e).rg rd).toNat) 1 := by
  obtain ⟨hal, hdat⟩ := h
  generalize hl : spell ((s.engine e).rg rd).toNat = l
  generalize ha : (s.engine e).ea ra imm = a at hal hdat ⊢
  have hk : kStore s.quiet e rd ra imm n spell = s.quiet.setEngine e (((s.engine e).store a l).spend 1).next := by
    simp [kStore, inData, ha, hl, hal, hdat]
  have hg : (s.keepOutside (kStore s.quiet e rd ra imm n spell)).engine e = (((s.engine e).store a l).spend 1).next := by
    rw [hk]
    exact State.engine_setEngine s.quiet e _
  obtain ⟨d, hd⟩ := (s.engine e).store_shape a l
  obtain ⟨hused, hadv, hdat', -, hrun, hitem, -, -, -, -, hrg⟩ :=
    kNext_facts (s.engine e) ((s.engine e).store a l) 1 (by rw [hd]; rfl) (by rw [hd]; rfl) (by rw [hd]; rfl) (by rw [hd])
  unfold StoresBytes
  rw [hg]
  refine ⟨fun x => ?_, fun k => ?_, hused, hadv, ?_, ?_, ?_⟩
  · rw [hdat', Engine.store_dat]
  · rw [hrg, Engine.rg_store]
  · rw [hrun, hd]
  · rw [hitem, hd]
  · rw [hk]
    exact onlyEngine_set s e _

/-- R303: any other store faults. -/
theorem kStore_faults {s : State} {e ra n : Nat} {imm : BitVec 18} (rd : Nat) (spell : Nat → List Byte)
    (h : ¬ Storable ((s.engine e).ea ra imm) n) : kStore s e rd ra imm n spell = faultHere s e 2 := by
  unfold kStore inData
  exact if_neg (by simpa [Storable] using h)

/-- An engine that executes has not faulted. -/
theorem Runs.not_faulted {s : State} {e : Nat} (h : Runs s e) : (s.engine e).faulted = false := by
  obtain ⟨-, hruns⟩ := h
  simp only [State.engRuns, Bool.and_eq_true, Bool.not_eq_true'] at hruns
  obtain ⟨⟨⟨-, hf⟩, -⟩, -⟩ := hruns
  exact hf

/-- R320, R321: an engine that executes shows a fault at the instruction where it stands. -/
theorem faultHere_shows {s : State} {e : Fin 16} (h : Runs s e) (cause : Nat) :
    ShowsFault s (s.keepOutside (faultHere s.quiet e cause)) e cause :=
  engFault_shows s.quiet e cause (s.engine e).pc h.not_faulted

/-! ### The commands -/

/-- What the command of an instruction does, where the engine executes. -/
theorem Runs.does {s : State} {e : Nat} (h : Runs s e) {c : Instr} {f : State → State} {P : State → Prop}
    (hc : exec c s = onEng s e f) (hP : P (s.keepOutside (f s.quiet))) : Does c s P :=
  ⟨_, hc.trans (onEng_runs h f), hP⟩

section
variable {s : State} {e rd ra : Fin 16} {imm : BitVec 18} {c : Instr} {n : Nat}

/-- A load command writes rd, where its bytes spell `v`. -/
theorem does_load (h : Runs s e) {spell : List Byte → Nat} (hc : exec c s = onEng s e (fun s => kLoad s e rd ra imm n spell))
    (ha : Loadable ((s.engine e).ea ra imm) n) {v : Nat}
    (hv : spell ((List.range n).map (fun k => (s.engine e).peek ((s.engine e).ea ra imm + k))) = v) :
    Does c s (fun t => WritesReg s t e rd (BitVec.ofNat 32 v) 2) :=
  h.does hc (hv ▸ kLoad_writes spell ha)

theorem does_load_fault (h : Runs s e) {spell : List Byte → Nat}
    (hc : exec c s = onEng s e (fun s => kLoad s e rd ra imm n spell)) (ha : ¬ Loadable ((s.engine e).ea ra imm) n) :
    Does c s (fun t => ShowsFault s t e 2) :=
  h.does hc (by rw [kLoad_faults (s := s.quiet) rd spell ha]; exact faultHere_shows h 2)

/-- A store command writes the bytes `l` that rd is spelt as. -/
theorem does_store (h : Runs s e) {spell : Nat → List Byte} (hc : exec c s = onEng s e (fun s => kStore s e rd ra imm n spell))
    (ha : Storable ((s.engine e).ea ra imm) n) {l : List Byte} (hl : spell ((s.engine e).rg rd).toNat = l) :
    Does c s (fun t => StoresBytes s t e ((s.engine e).ea ra imm) l 1) :=
  h.does hc (hl ▸ kStore_stores rd spell ha)

theorem does_store_fault (h : Runs s e) {spell : Nat → List Byte}
    (hc : exec c s = onEng s e (fun s => kStore s e rd ra imm n spell)) (ha : ¬ Storable ((s.engine e).ea ra imm) n) :
    Does c s (fun t => ShowsFault s t e 2) :=
  h.does hc (by rw [kStore_faults (s := s.quiet) rd spell ha]; exact faultHere_shows h 2)

end

/-- Settles O9: each clause is the rule of a load, a store or a fault at the width and the byte order of its command. -/
theorem kelpieMemory : Obligations.KelpieMemory := by
  refine ⟨fun s e rd ra imm h => ?loads, fun s e rd ra imm h => ?stores, fun s e rd ra imm h => ?faults⟩
  case loads =>
    exact ⟨fun ha => does_load h rfl ha (leNat_map_four _), fun ha => does_load h rfl ha (leNat_map_two _),
      fun ha => does_load h rfl ha (leNat_map_one _), fun ha => does_load h rfl ha (beNat_map_four _)⟩
  case stores =>
    exact ⟨fun ha => does_store h rfl ha (leBytes_toNat_four _), fun ha => does_store h rfl ha (leBytes_toNat_two _),
      fun ha => does_store h rfl ha (leBytes_toNat_one _), fun ha => does_store h rfl ha (beBytes_toNat_four _)⟩
  case faults =>
    exact ⟨fun ha => ⟨does_load_fault h rfl ha, does_load_fault h rfl ha⟩, fun ha => does_load_fault h rfl ha,
      fun ha => does_load_fault h rfl ha, fun ha => ⟨does_store_fault h rfl ha, does_store_fault h rfl ha⟩,
      fun ha => does_store_fault h rfl ha, fun ha => does_store_fault h rfl ha⟩

end Sys2Proof.Machine
end

section
/-! The time counter's two halves, read by the host (R330). -/

namespace Sys2Proof.Machine

/-! ### TIME_CNT_LO: the read that latches -/

theorem exec_timeCntLoRead (s : State) : exec .timeCntLoRead s = onDie s (fun s => (timeCntLo s).2.put (.read (timeCntLo s).1)) := rfl

/-- R330: a read of TIME_CNT_LO puts the low half outside, latches the high half, and leaves the rest. -/
theorem exec_timeCntLoRead_on {s : State} (hd : s.dOn = true) :
    exec .timeCntLoRead s = .next { s with
      out := [.read (s.time.cnt.truncate 32)], time := { s.time with cntHi := (s.time.cnt >>> 32).truncate 32 } } := by
  rw [exec_timeCntLoRead, onDie_on hd]
  rfl

/-! ### TIME_CNT_HI: the read of the latch -/

/-- R351: a served read of a register puts its value outside and nothing else, where reading the register changes nothing. -/
theorem exec_rcRegisterRead_of_regRead {s : State} {acc : BusRead} {r : Reg} {i j : Nat} {v : Word} (hd : s.dOn = true)
    (hu : s.hostUp = true) (hw : wholeDw acc.addr.toNat acc.be acc.dws = true) (hs : s.stopped acc.addr.toNat = false)
    (hc : counterAddr acc.addr.toNat = false) (hk : keepAlias acc.addr.toNat = acc.addr.toNat)
    (hat : Reg.at? acc.addr.toNat = some (r, i, j)) (hr : r ≠ .WIN_FENCE) (hg : regRead s.quiet r i j = (v, s.quiet)) :
    exec (.rcRegisterRead acc) s = .next { s with out := [.read v] } := by
  have hf : ∀ x, Reg.at? acc.addr.toNat ≠ some (.WIN_FENCE, x) := by simp [hat, hr]
  have hb : busGet s.quiet acc.addr.toNat = (v, s.quiet) := by rw [busGet_of_at hc (hk.symm ▸ hat), hg]
  exact exec_rcRegisterRead_of_busGet hd hu hw hs hf hb

/-- Both parts have TIME_CNT_HI. -/
theorem State.partLacks_timeCntHi (s : State) : s.partLacks .TIME_CNT_HI 0 = false := by
  simp [State.partLacks, Reg.row, mkRow]

theorem regRead_timeCntHi (s : State) : regRead s .TIME_CNT_HI 0 0 = (s.time.cntHi, s) := by
  have hl : s.live .TIME_CNT_HI 0 0 = some s.time.cntHi := rfl
  simp [regRead, State.partLacks_timeCntHi, classLacks, hl]

theorem Reg.at?_timeCntHi : Reg.at? (Reg.TIME_CNT_HI.addr 0 0) = some (.TIME_CNT_HI, 0, 0) := by decide

/-- R330: a served read of TIME_CNT_HI shows the latch and changes nothing. -/
theorem exec_rcRegisterRead_timeCntHi {s : State} {acc : BusRead} (hd : s.dOn = true) (hu : s.hostUp = true)
    (ha : acc.addr.toNat = Reg.TIME_CNT_HI.addr 0 0) (hbe : acc.be = 0xF) (hdws : acc.dws = 1)
    (hs : s.stopped acc.addr.toNat = false) : exec (.rcRegisterRead acc) s = .next { s with out := [.read s.time.cntHi] } := by
  refine exec_rcRegisterRead_of_regRead (r := .TIME_CNT_HI) (i := 0) (j := 0) hd hu ?whole hs ?counter ?noAlias ?register
    (by decide) (regRead_timeCntHi s.quiet)
  case whole => rw [ha, hbe, hdws]; decide
  case counter => rw [ha]; decide
  case noAlias => rw [ha]; rfl
  case register => rw [ha, Reg.at?_timeCntHi]

/-- Settles O17: each half is what its read puts outside, and only the read of the low half changes the latch. -/
theorem timeCounterRead : Obligations.TimeCounterRead := fun _ hd =>
  ⟨⟨_, exec_timeCntLoRead_on hd, rfl, rfl, rfl⟩,
    fun _ hu ha hbe hdws hs => ⟨_, exec_rcRegisterRead_timeCntHi hd hu ha hbe hdws hs, rfl⟩⟩

end Sys2Proof.Machine
end
